-- ==== Sys2Proof/Word.lean ====
section
/-! DEFINITION. The words, row numbers and lane numbers of the EF4160, and `Lanes`, sixteen things of one kind. -/

namespace Sys2Proof

/-- A register word: sixteen data lines D15 to D0 (R165). -/
abbrev Word := BitVec 16

/-- A word address within the register window: six address lines A5 to A0 (R165). -/
abbrev Addr := BitVec 6

/-- A row of pattern memory, 0 to 4095; there is no row outside this range (R1). -/
abbrev RowNum := Fin 4096

/-- A lane, L0 to L15, or a lane index of the window (00_scope.md 3). -/
abbrev Lane := Fin 16

/-- The row a sum of layout values names. The rules of run control keep the sum below 4096 (R77). -/
def RowNum.ofSum (n : Nat) : RowNum := Fin.ofNat 4096 n

/-- One thing for each of the lanes L0 to L15. -/
structure Lanes (α : Type) where
  l0 : α
  l1 : α
  l2 : α
  l3 : α
  l4 : α
  l5 : α
  l6 : α
  l7 : α
  l8 : α
  l9 : α
  l10 : α
  l11 : α
  l12 : α
  l13 : α
  l14 : α
  l15 : α
deriving DecidableEq, Repr

namespace Lanes

/-- The sixteen things a rule gives lane by lane. -/
def ofFn {α : Type} (f : Lane → α) : Lanes α :=
  ⟨f 0, f 1, f 2, f 3, f 4, f 5, f 6, f 7, f 8, f 9, f 10, f 11, f 12, f 13, f 14, f 15⟩

/-- The thing of lane Ln. -/
def get {α : Type} (v : Lanes α) (n : Lane) : α :=
  match n.val with
  | 0 => v.l0 | 1 => v.l1 | 2 => v.l2 | 3 => v.l3
  | 4 => v.l4 | 5 => v.l5 | 6 => v.l6 | 7 => v.l7
  | 8 => v.l8 | 9 => v.l9 | 10 => v.l10 | 11 => v.l11
  | 12 => v.l12 | 13 => v.l13 | 14 => v.l14 | _ => v.l15

/-- The same thing for every lane. -/
def all {α : Type} (x : α) : Lanes α := ofFn fun _ => x

/-- One lane replaced, the others as they were. -/
def set {α : Type} (v : Lanes α) (n : Lane) (x : α) : Lanes α :=
  ofFn fun m => if m = n then x else v.get m

/-- Whether any lane of a set of lanes is in it. -/
def any (v : Lanes Bool) : Bool :=
  v.l0 || v.l1 || v.l2 || v.l3 || v.l4 || v.l5 || v.l6 || v.l7 ||
  v.l8 || v.l9 || v.l10 || v.l11 || v.l12 || v.l13 || v.l14 || v.l15

/-- A set of lanes as a word, bit n for lane Ln (R174, R175). -/
def toWord (v : Lanes Bool) : Word :=
  BitVec.ofBoolListLE
    [v.l0, v.l1, v.l2, v.l3, v.l4, v.l5, v.l6, v.l7,
     v.l8, v.l9, v.l10, v.l11, v.l12, v.l13, v.l14, v.l15]

end Lanes

end Sys2Proof
end

