-- ==== Sys2Proof/Config.lean ====
section
/-! DEFINITION. The free values: levels and orders that the manual leaves open while the part goes on. None has a body, so no proof
can see which it is. The first argument is the model's counter `State.free`, so that each use has a fresh value. -/

namespace Sys2Proof.Config

/-- The level the sampler reads on an undriven lane that its termination is still pulling: "a sample or LANE_IN read taken
sooner may show either level" (R127). DESIGN CHOICE, log entry 10. -/
opaque sampleWhileMoving : Nat → Lane → Bool

/-- The level LANE_IN shows on such a lane (R127, R133). DESIGN CHOICE, log entry 10. -/
opaque laneInWhileMoving : Nat → Lane → Bool

/-- The level a pin has when its termination is changed or taken away before the pulled level was reached; the keeper then
holds it (R127). DESIGN CHOICE, log entry 10. -/
opaque leftMidway : Nat → Lane → Bool

/-- The level LANE_IN shows on a lane that the part and the unit under test drive against each other: "whichever level the
pin settles at" (R133). DESIGN CHOICE, log entry 11. -/
opaque contendedLevel : Nat → Lane → Bool

/-- Which of the six orders the bus strobes that move between the same two samples move in: the manual takes each edge by itself
(R165) and says nothing of edges that the part sees together. DESIGN CHOICE, log entry 29. -/
opaque strobeOrder : Nat → Fin 6

/-- Whether a fill has begun its next row when FILL ABORT or SOFT RESET is taken between the end of one row write and the end of
the next: it writes "the row it has begun, if any" (R17, R18). DESIGN CHOICE, log entry 6. -/
opaque fillRowBegun : Nat → Bool

end Sys2Proof.Config
end

