-- ==== Sys2Proof/Syntax.lean ====
section
/-! DEFINITION. The commands of the EF4160, one constructor for each row of spec/opcode_table.json. The table gives no operand
fields; the operands are what the rule of the row says the command carries. -/

namespace Sys2Proof

/-- Which of two registers of eight lanes: A for L0 to L7, B for L8 to L15 (R126, R128). -/
inductive Half where
  | a
  | b
deriving DecidableEq, Repr

/-- The four layout registers (R75). -/
inductive LayoutReg where
  | base
  | headLen
  | loopLen
  | tailLen
deriving DecidableEq, Repr

/-- The three timebase registers (R71). -/
inductive TimebaseReg where
  | prescale
  | period
  | gateConfig
deriving DecidableEq, Repr

/-- The five registers of the access window that the host writes (R20). -/
inductive WindowReg where
  | rowStart
  | rowEnd
  | lanes
  | mode
  | fillValue
deriving DecidableEq, Repr

/-- What the unit under test does to a lane: nothing, or drive it low or high (R127). -/
inductive UutDrive where
  | silent
  | low
  | high
deriving DecidableEq, Repr

/-- The commands. A bus command stands for a cycle the part has taken (R165). -/
inductive Instr where
  /-- POWER_ON (R9): the supply is applied. -/
  | powerOn
  /-- RESET_N_ASSERT (R9): RESET_N is taken low. -/
  | resetNAssert
  /-- RESET_N_RELEASE (R9): RESET_N is released. -/
  | resetNRelease
  /-- SWEEP_ROW_WRITE (R9): the sweep writes its next row. -/
  | sweepRowWrite
  /-- FILL_ROW_WRITE (R13): the fill writes its next row. -/
  | fillRowWrite
  /-- COMMIT_APPLICATION_END (R64): the oldest commit application at PM finishes its cycles. -/
  | commitApplicationEnd
  /-- START (R82). -/
  | start
  /-- ARM (R83). -/
  | arm
  /-- STOP (R92). -/
  | stop
  /-- ABORT (R95). -/
  | abort
  /-- SET WINDOW (R21). -/
  | setWindow
  /-- SEEK (R23). -/
  | seek
  /-- FILL (R12). -/
  | fill
  /-- FILL ABORT (R17). -/
  | fillAbort
  /-- CLOSE BATCH (R47). -/
  | closeBatch
  /-- DISCARD BATCH (R49). -/
  | discardBatch
  /-- FLUSH QUEUE (R50). -/
  | flushQueue
  /-- COMMIT (R54). -/
  | commit
  /-- LOG POP (R150). -/
  | logPop
  /-- LOG CLEAR (R151). -/
  | logClear
  /-- SOFT RESET (R177). -/
  | softReset
  /-- A COMMAND write with a code that is not a command (R168). -/
  | unknownCommand (code : Word)
  /-- A DATA write (R29). -/
  | dataWrite (word : Word)
  /-- A DATA read (R32). -/
  | dataRead
  /-- A write to EVENTS (R158). -/
  | eventsWrite (value : Word)
  /-- A write to EVENT_ENABLE (R161). -/
  | eventEnableWrite (value : Word)
  /-- A write to PARK_A or PARK_B (R128). -/
  | parkWrite (half : Half) (value : Word)
  /-- A write to TERM_A or TERM_B (R126). -/
  | termWrite (half : Half) (value : Word)
  /-- A write to ENTRY_OFFSET (R98). -/
  | entryOffsetWrite (value : Word)
  /-- A write to PASS_TARGET (R99). -/
  | passTargetWrite (value : Word)
  /-- A write to BASE, HEAD_LEN, LOOP_LEN or TAIL_LEN (R76). -/
  | layoutWrite (reg : LayoutReg) (value : Word)
  /-- A write to TB_PRESCALE, TB_PERIOD or GATE_CONFIG (R72). -/
  | timebaseWrite (reg : TimebaseReg) (value : Word)
  /-- A write to STROBE (R119). -/
  | strobeWrite (value : Word)
  /-- A write to WAIT_LIMIT (R120). -/
  | waitLimitWrite (value : Word)
  /-- A write to COMPARE_MASK (R137). -/
  | compareMaskWrite (value : Word)
  /-- A write to FAIL_POLICY (R146). -/
  | failPolicyWrite (value : Word)
  /-- A write to WIN_ROW_START, WIN_ROW_END, WIN_LANES, WIN_MODE or FILL_VALUE (R20). -/
  | windowRegisterWrite (reg : WindowReg) (value : Word)
  /-- A write to RUN_CONFIG (R84). -/
  | runConfigWrite (value : Word)
  /-- A write to any word address of the register window (R166, R167). -/
  | registerWrite (addr : Addr) (value : Word)
  /-- The TRIG pin goes to `level` and is sampled there (R84). -/
  | trigEdge (level : Bool)
  /-- The GATE pin goes to `level` (R68). -/
  | gateChange (level : Bool)
  /-- A period completes (R64). -/
  | tick
  /-- A wait reaches its limit (R114). -/
  | waitTimeout
  /-- The latched row reaches its dwell (R111). -/
  | rowEnd
  /-- Two CLKIN cycles have passed since the last marked latch (R108). -/
  | markPulseEnd
  /-- Two CLKIN cycles have passed since the last pass boundary (R90). -/
  | passmarkPulseEnd
  /-- The unit under test changes what it does to a lane (R127). -/
  | uutLaneDriveChange (lane : Lane) (drive : UutDrive)
  /-- An undriven lane with a termination reaches its pulled level (R127). -/
  | pulledLevelReached (lane : Lane)
deriving DecidableEq, Repr

end Sys2Proof
end

