-- ==== Sys2Proof/Decode.lean ====
section
/-! DEFINITION. Decoding. No row of spec/opcode_table.json gives bits, so no table word spells a command. -/

namespace Sys2Proof

/-- The command that a table word spells: none, since the table gives no bits for any row (98_reader.md: 48 rows unread). -/
def decodeTableWord (_nbits _w : Nat) : Option Instr := none

/-- The command that a word written to COMMAND is. All sixteen bits form the code, which is not masked (R168). -/
def commandOfCode (code : Word) : Option Instr :=
  match code.toNat with
  | 0x01 => some .start
  | 0x02 => some .arm
  | 0x03 => some .stop
  | 0x04 => some .abort
  | 0x10 => some .setWindow
  | 0x11 => some .seek
  | 0x12 => some .fill
  | 0x13 => some .fillAbort
  | 0x20 => some .closeBatch
  | 0x21 => some .discardBatch
  | 0x22 => some .flushQueue
  | 0x23 => some .commit
  | 0x30 => some .logPop
  | 0x31 => some .logClear
  | 0x5A => some .softReset
  | _ => none

end Sys2Proof
end

