-- ==== Sys2Proof/Machine/State.lean ====
section
/-! DEFINITION. The state of the EF4160, one structure for each block of 00_scope.md 1.2, the reasons a step can stop, and the
state right after reset. -/

namespace Sys2Proof.Machine

/-- No rule of the manual stops the part: "a bus cycle itself always completes" (00_scope.md 3), so there is no fault. -/
inductive Fault
deriving DecidableEq, Repr

/-- Why a command is refused by the model. -/
inductive Refusal where
  /-- Raised by `exec` for a command that has no meaning yet. Safe: nothing is claimed about it. No arm raises it. -/
  | notModelled (mnemonic : String)
deriving DecidableEq, Repr

/-! ### Pattern memory -/

/-- The six cell codes (R2). -/
inductive CellCode where
  | driveLow
  | driveHigh
  | keep
  | release
  | expectLow
  | expectHigh
deriving DecidableEq, Repr

/-- The attribute record of a row (R3). The dwell, 1 to 256, is held as dwell minus 1. -/
structure Attributes where
  dwellLess1 : BitVec 8
  wait       : Bool
  mark       : Bool
deriving DecidableEq, Repr

/-- One row: sixteen cells and one attribute record (R1). -/
structure RowData where
  cells      : Lanes CellCode
  attributes : Attributes
deriving DecidableEq, Repr

/-- The reset contents of a row: every cell RELEASE, dwell 1, wait no, mark no (R1). -/
def RowData.reset : RowData := ⟨Lanes.all .release, ⟨0, false, false⟩⟩

/-- The contents of pattern memory: the rows that differ from the reset contents, by strictly rising row number. -/
abbrev Memory := List (Nat × RowData)

/-- What a window addresses (R19). -/
inductive Plane where
  | cells
  | attributes
deriving DecidableEq, Repr

/-- The row direction of a window or fill (R19). -/
inductive Direction where
  | ascending
  | descending
deriving DecidableEq, Repr

/-- The value a fill writes, by the plane it copied (R12). -/
inductive FillValue where
  | cells (code : CellCode)
  | attributes (record : Attributes)
deriving DecidableEq, Repr

/-- A fill in progress: its own copy of the window and the value (R12), the row it writes next, and whether it has begun that row
and ends after it without FILLDONE (R17, R18). -/
structure Fill where
  rowStart  : RowNum
  rowEnd    : RowNum
  laneStart : Lane
  laneEnd   : Lane
  direction : Direction
  value     : FillValue
  row       : RowNum
  ending    : Bool
deriving DecidableEq, Repr

/-- Pattern memory (chapter 1). -/
structure PatternMemory where
  /-- The 4096 rows (R1). -/
  rows    : Memory
  /-- The row the initialization sweep writes next, while it is in progress (R9). -/
  sweep   : Option RowNum
  /-- The fill in progress (R12). -/
  fill    : Option Fill
  /-- The CLKIN cycles left of each commit application in progress, oldest first (R64). -/
  commits : List Nat
deriving DecidableEq, Repr

/-! ### The access window -/

/-- The traversal order (R19). -/
inductive Traversal where
  | laneFirst
  | rowFirst
deriving DecidableEq, Repr

/-- Where DATA writes go (R19). -/
inductive Target where
  | direct
  | staged
deriving DecidableEq, Repr

/-- The fields of WIN_MODE (R19, R174). -/
structure WindowMode where
  traversal : Traversal
  direction : Direction
  plane     : Plane
  target    : Target
  /-- Cells per transfer, k. -/
  cells     : BitVec 3
deriving DecidableEq, Repr

/-- The held window: what the host has written (R19). -/
structure HeldWindow where
  rowStart  : Word
  rowEnd    : Word
  laneStart : Lane
  laneEnd   : Lane
  mode      : WindowMode
deriving DecidableEq, Repr

/-- The window in effect (R19). -/
structure Window where
  rowStart  : RowNum
  rowEnd    : RowNum
  laneStart : Lane
  laneEnd   : Lane
  mode      : WindowMode
deriving DecidableEq, Repr

/-- A place of the window's walk: a row and a lane (2.3). -/
structure Place where
  row  : RowNum
  lane : Lane
deriving DecidableEq, Repr

/-- The access window (R19). -/
structure AccessWindow where
  held      : HeldWindow
  /-- The window in effect. -/
  eff       : Window
  cursor    : Place
  fillValue : Word
deriving DecidableEq, Repr

/-! ### The staged-update queue -/

/-- One cell write of a CELLS entry (R41). -/
structure Triple where
  row  : RowNum
  lane : Lane
  code : CellCode
deriving DecidableEq, Repr

/-- One entry of the queue (R41). Its batch number is the number of the batch it stands in. -/
inductive Entry where
  | cells (triples : List Triple)
  | attributes (row : RowNum) (record : Attributes)
deriving DecidableEq, Repr

/-- A closed batch: its number and its entries in queue order (R42). -/
structure Batch where
  number  : BitVec 8
  entries : List Entry
deriving DecidableEq, Repr

/-- The open batch (R42), which may be damaged (R45). -/
structure OpenBatch where
  number  : BitVec 8
  entries : List Entry
  damaged : Bool
deriving DecidableEq, Repr

/-- The staged-update queue (R40): the ordered list of entries, by batch, oldest first, the open batch last. -/
structure UpdateQueue where
  closed    : List Batch
  openBatch : Option OpenBatch
  /-- The next batch number (R43). -/
  next      : BitVec 8
deriving DecidableEq, Repr

/-! ### The timebase -/

/-- The timebase (R62). -/
structure Timebase where
  /-- TB_PRESCALE, the division exponent. -/
  prescale      : BitVec 3
  /-- TB_PERIOD, the period less one. -/
  period        : Word
  gateEnabled   : Bool
  /-- The hold level: high or low. -/
  holdHigh      : Bool
  prescaleCount : Nat
  periodCount   : Nat
  counting      : Bool
  /-- The model's own: the first latch of the run waits for commit applications at PM, so no cycle counts yet (R65). Log entry 9. -/
  startHeld     : Bool
  stamp         : BitVec 32
deriving DecidableEq, Repr

/-! ### Run control -/

/-- The six sequencer states (R80). -/
inductive SeqState where
  | idle
  | armed
  | head
  | loop
  | tail
  | halted
deriving DecidableEq, Repr

/-- Run control (R79). -/
structure RunControl where
  seq            : SeqState
  base           : Word
  headLen        : Word
  loopLen        : Word
  tailLen        : Word
  /-- E, the entry offset. -/
  entryOffset    : Word
  pendingOffset  : Option Word
  stopMark       : Bool
  passCount      : Word
  /-- The pass target register. -/
  passTarget     : Word
  targetInForce  : Word
  curRow         : RowNum
  /-- How many rows of the current pass have ended (R86). -/
  passRows       : Nat
  /-- TRIG polarity: falling if set, rising if not (R84). -/
  fallingTrig    : Bool
  /-- CLKIN cycles for which PASSMARK is still high (R90). -/
  passmarkCycles : Nat
deriving DecidableEq, Repr

/-! ### Lanes and row playback -/

/-- The five effective states of a lane (R105, R123). -/
inductive LaneState where
  | drivenLow
  | drivenHigh
  | released
  | expectingLow
  | expectingHigh
deriving DecidableEq, Repr

/-- A lane's park setting (R128). -/
inductive Park where
  | release
  | low
  | high
deriving DecidableEq, Repr

/-- A lane's termination setting (R126). -/
inductive Termination where
  | none
  | pullUp
  | pullDown
deriving DecidableEq, Repr

/-- The row phase (R103). -/
inductive RowPhase where
  | dwell
  | waiting
deriving DecidableEq, Repr

/-- The latched row (R103). -/
structure LatchedRow where
  row        : RowNum
  /-- The resolved states. -/
  states     : Lanes LaneState
  dwellLess1 : BitVec 8
  wait       : Bool
deriving DecidableEq, Repr

/-- Row playback (R103). -/
structure Playback where
  latched       : Option LatchedRow
  phase         : RowPhase
  tickInRow     : Nat
  waitCount     : Word
  /-- STROBE, 1 to 256. -/
  strobe        : Word
  waitLimit     : Word
  /-- CLKIN cycles for which MARK is still high (R108). -/
  markCycles    : Nat
  /-- The mismatching lanes that the last wait check answered (R112, R141). -/
  checkMismatch : Lanes Bool
deriving DecidableEq, Repr

/-- The lane unit (R123), with what the unit under test does to each lane. -/
structure LaneUnit where
  effective : Lanes LaneState
  park      : Lanes Park
  term      : Lanes Termination
  keeper    : Lanes Bool
  uut       : Lanes UutDrive
  /-- Drivers and terminations are not turned off by RESET_N (R134). -/
  active    : Bool
  /-- The tick's sample (R132). -/
  sample    : Lanes Bool
deriving DecidableEq, Repr

/-! ### Compare unit and fail log -/

/-- The kind of a fail (R142). -/
inductive FailKind where
  | compare
  | waitTimeout
deriving DecidableEq, Repr

/-- The region of a fail (R142). -/
inductive Region where
  | head
  | loop
  | tail
deriving DecidableEq, Repr

/-- One fail record (R142). -/
structure FailRecord where
  kind    : FailKind
  region  : Region
  row     : RowNum
  /-- Present when the region is LOOP. -/
  pass    : Option Word
  failing : Lanes Bool
  levels  : Lanes Bool
  stamp   : BitVec 32
deriving DecidableEq, Repr

/-- The fail policy (R146). -/
inductive FailPolicy where
  | continue
  | stop
  | halt
deriving DecidableEq, Repr

/-- The compare unit and the fail log (R136). -/
structure CompareUnit where
  mask     : Word
  policy   : FailPolicy
  /-- Oldest first. -/
  log      : List FailRecord
  overflow : Word
deriving DecidableEq, Repr

/-! ### Events, host bus and pins -/

/-- The event unit (R156). -/
structure EventUnit where
  flags   : Word
  enables : Word
deriving DecidableEq, Repr

/-- The eight outcomes of a command (R169). -/
inductive CmdOutcome where
  | accepted
  | refusedState
  | refusedBusy
  | refusedLayout
  | refusedWindow
  | empty
  | dropped
  | unknown
deriving DecidableEq, Repr

/-- The levels of CS_N, RD_N and WR_N (R165). -/
structure Strobes where
  csLow : Bool
  rdLow : Bool
  wrLow : Bool
deriving DecidableEq, Repr

/-- What the host puts on the bus lines: the strobes, A5 to A0 and D15 to D0 (R165). -/
structure BusLines where
  strobes : Strobes
  addr    : Addr
  data    : Word
deriving DecidableEq, Repr

/-- The host bus interface (R165, R169). -/
structure HostBus where
  outcome  : CmdOutcome
  serial   : BitVec 4
  /-- The word that the last DATA read returned, if one was taken since the reset. -/
  readWord : Option Word
  /-- The strobes of the last CLKIN sample, against which an edge is seen (R165, R178). -/
  seen     : Strobes
  /-- The word the part drives on D15 to D0; none while it drives no data line (R165). -/
  driven   : Option Word
deriving DecidableEq, Repr

/-- The dedicated pins that come in, and the bus lines as the host holds them. -/
structure Pins where
  /-- RESET_N is low (R176). -/
  resetLow : Bool
  /-- The TRIG level of the last sample (R84). -/
  trig     : Bool
  /-- The GATE level (R68). -/
  gate     : Bool
  /-- The bus lines. No command changes them: the host does, as it adds to `State.pending`. Log entry 29. -/
  lines    : BusLines
deriving DecidableEq, Repr

/-! ### The whole part -/

/-- The state of the part, its input pins, and the commands waiting. -/
structure State where
  pm       : PatternMemory
  window   : AccessWindow
  queue    : UpdateQueue
  timebase : Timebase
  run      : RunControl
  play     : Playback
  lanes    : LaneUnit
  compare  : CompareUnit
  events   : EventUnit
  bus      : HostBus
  pins     : Pins
  /-- The model's own counter, the argument of the free values of Config. Log entry 10. -/
  free     : Nat
  /-- The commands waiting, first in, first out. -/
  pending  : List Instr
deriving DecidableEq, Repr

/-! ### Reset values -/

/-- WIN_MODE after reset: LANE_FIRST, ASCENDING, CELLS, DIRECT, one cell per transfer (R39). -/
def WindowMode.reset : WindowMode := ⟨.laneFirst, .ascending, .cells, .direct, 1⟩

/-- The access window after reset (R39). -/
def AccessWindow.reset : AccessWindow where
  held := ⟨0, 4095, 0, 15, .reset⟩
  eff := ⟨0, 4095, 0, 15, .reset⟩
  cursor := ⟨0, 0⟩
  fillValue := 0

/-- The queue after reset (R60). -/
def UpdateQueue.reset : UpdateQueue := ⟨[], none, 0⟩

/-- The timebase after reset (R73). -/
def Timebase.reset : Timebase where
  prescale := 0
  period := 0
  gateEnabled := false
  holdHigh := false
  prescaleCount := 0
  periodCount := 0
  counting := false
  startHeld := false
  stamp := 0

/-- Run control after reset (R101). The row position has no reset value in the manual: DESIGN CHOICE 0, log entry 13. -/
def RunControl.reset : RunControl where
  seq := .idle
  base := 0
  headLen := 0
  loopLen := 0
  tailLen := 0
  entryOffset := 0
  pendingOffset := none
  stopMark := false
  passCount := 0
  passTarget := 0
  targetInForce := 0
  curRow := 0
  passRows := 0
  fallingTrig := false
  passmarkCycles := 0

/-- Row playback after reset (R122). The answer of the last wait check has no reset value: DESIGN CHOICE none, log entry 13. -/
def Playback.reset : Playback where
  latched := none
  phase := .dwell
  tickInRow := 0
  waitCount := 0
  strobe := 256
  waitLimit := 0
  markCycles := 0
  checkMismatch := Lanes.all false

/-- The lane unit after power-on (R134), the unit under test silent. DESIGN CHOICE for `uut` (log entry 12) and for the sample
(log entry 13). -/
def LaneUnit.reset : LaneUnit where
  effective := Lanes.all .released
  park := Lanes.all .release
  term := Lanes.all .none
  keeper := Lanes.all false
  uut := Lanes.all .silent
  active := true
  sample := Lanes.all false

/-- The compare unit after reset (R154). -/
def CompareUnit.reset : CompareUnit := ⟨0xFFFF, .continue, [], 0⟩

/-- The event unit after reset (R163). -/
def EventUnit.reset : EventUnit := ⟨0, 0⟩

/-- CS_N, RD_N and WR_N high. -/
def Strobes.high : Strobes := ⟨false, false, false⟩

/-- The host bus after power-on or RESET_N, with the strobes as `seen`: OUTCOME reads 0x0000 (R169) and no data line is driven
(R176). No word has been read: DESIGN CHOICE, log entry 13. -/
def HostBus.resetWith (seen : Strobes) : HostBus := ⟨.accepted, 0, none, seen, none⟩

/-- The state right after power-on with RESET_N high: every block at its power-on values and the initialization sweep beginning
at row 0 (R9, R176). The rows are not known until the sweep has written them (R9): DESIGN CHOICE nothing listed, log entry 4.
The levels of TRIG and GATE: DESIGN CHOICE low; the bus lines: DESIGN CHOICE the strobes high, address and data 0; log entry 12. -/
def State.reset : State where
  pm := ⟨[], some 0, none, []⟩
  window := .reset
  queue := .reset
  timebase := .reset
  run := .reset
  play := .reset
  lanes := .reset
  compare := .reset
  events := .reset
  bus := .resetWith .high
  pins := ⟨false, false, false, ⟨.high, 0, 0⟩⟩
  free := 0
  pending := []

end Sys2Proof.Machine
end

