-- ==== Sys2Proof/Machine/Flags.lean ====
section
/-! DEFINITION. The sixteen event flags: raising, clearing, and the IRQ_N pin (chapter 9). -/

namespace Sys2Proof.Machine

/-- The sixteen events, in their bit order in EVENTS and EVENT_ENABLE (the table of 9.4). -/
inductive Event where
  | done
  | halt
  | pass
  | mark
  | fail
  | logFull
  | logOvf
  | trigIgn
  | wrap
  | fillDone
  | qFull
  | batchDrop
  | commit
  | accErr
  | codeErr
  | initDone
deriving DecidableEq, Repr

/-- The bit of an event in EVENTS and EVENT_ENABLE (9.4). -/
def Event.bit : Event → Nat
  | .done => 0
  | .halt => 1
  | .pass => 2
  | .mark => 3
  | .fail => 4
  | .logFull => 5
  | .logOvf => 6
  | .trigIgn => 7
  | .wrap => 8
  | .fillDone => 9
  | .qFull => 10
  | .batchDrop => 11
  | .commit => 12
  | .accErr => 13
  | .codeErr => 14
  | .initDone => 15

/-- The word with the one bit of an event. -/
def Event.mask (e : Event) : Word := 1#16 <<< e.bit

/-- Raising sets the flag and changes no other flag and no enable (R157). -/
def EventUnit.raise (u : EventUnit) (e : Event) : EventUnit := { u with flags := u.flags ||| e.mask }

/-- Whether a flag is set (R156). -/
def EventUnit.isSet (u : EventUnit) (e : Event) : Bool := u.flags.getLsbD e.bit

/-- A cause raises its flag in the event in which the owning block takes the cause (R157). -/
def State.raise (s : State) (e : Event) : State := { s with events := s.events.raise e }

/-- A cause that holds only under a condition. -/
def State.raiseIf (s : State) (c : Bool) (e : Event) : State := if c then s.raise e else s

/-- A write to EVENTS clears each flag written with 1 and leaves the others (R158). -/
def EventUnit.clear (u : EventUnit) (ones : Word) : EventUnit := { u with flags := u.flags &&& ~~~ones }

/-- IRQ_N is pulled low while at least one flag is both set and enabled, and released while RESET_N is low (R162). -/
def State.irqLow (s : State) : Bool := !s.pins.resetLow && (s.events.flags &&& s.events.enables != 0)

end Sys2Proof.Machine
end

