-- ==== Sys2Proof/Machine/Operands.lean ====
section
/-! DEFINITION. Word layouts: what the bits of a written word mean and how a word read is put together (10.5). -/

namespace Sys2Proof.Machine

/-! ### Pattern words (R173) -/

/-- The cell code of a three-bit value; 6 and 7 are invalid (R2). -/
def CellCode.ofBits (b : BitVec 3) : Option CellCode :=
  match b.toNat with
  | 0 => some .driveLow
  | 1 => some .driveHigh
  | 2 => some .keep
  | 3 => some .release
  | 4 => some .expectLow
  | 5 => some .expectHigh
  | _ => none

/-- The value of a cell code in transfer words and in FILL_VALUE (R2). -/
def CellCode.toBits : CellCode → BitVec 3
  | .driveLow => 0
  | .driveHigh => 1
  | .keep => 2
  | .release => 3
  | .expectLow => 4
  | .expectHigh => 5

/-- Cell i of a transfer word is in bits 3i + 2 to 3i (R173). -/
def cellField (word : Word) (i : Nat) : BitVec 3 := word.extractLsb' (3 * i) 3

/-- A read word with the codes of cells 0, 1, 2 and on; the bits above them read 0 (R32). -/
def cellsWord : List CellCode → Word
  | [] => 0
  | c :: cs => (cellsWord cs <<< 3) ||| c.toBits.zeroExtend 16

/-- The attribute record of an attribute word: dwell minus 1 in bits 7:0, wait in bit 8, mark in bit 9 (R173). -/
def Attributes.ofWord (word : Word) : Attributes :=
  ⟨word.extractLsb' 0 8, word.getLsbD 8, word.getLsbD 9⟩

/-- The attribute word of a record; bits 15:10 read 0 (R173). -/
def Attributes.toWord (a : Attributes) : Word :=
  (0#6 ++ BitVec.ofBool a.mark ++ BitVec.ofBool a.wait ++ a.dwellLess1 : BitVec 16)

/-- The dwell of a record, 1 to 256 (R3). -/
def dwellOf (dwellLess1 : BitVec 8) : Nat := dwellLess1.toNat + 1

/-! ### Window words (R174) -/

/-- Lane start, WIN_LANES bits 3:0 (R174). -/
def laneStartOf (word : Word) : Lane := Fin.ofNat 16 (word.extractLsb' 0 4).toNat

/-- Lane end, WIN_LANES bits 7:4 (R174). -/
def laneEndOf (word : Word) : Lane := Fin.ofNat 16 (word.extractLsb' 4 4).toNat

/-- WIN_LANES as it reads back; the other bits read 0 (R20). -/
def lanesWord (laneStart laneEnd : Lane) : Word :=
  (0#8 ++ BitVec.ofNat 4 laneEnd.val ++ BitVec.ofNat 4 laneStart.val : BitVec 16)

/-- The fields of a word written to WIN_MODE (R174). -/
def WindowMode.ofWord (word : Word) : WindowMode where
  traversal := if word.getLsbD 0 then .rowFirst else .laneFirst
  direction := if word.getLsbD 1 then .descending else .ascending
  plane := if word.getLsbD 2 then .attributes else .cells
  target := if word.getLsbD 3 then .staged else .direct
  cells := word.extractLsb' 4 3

/-- WIN_MODE as it reads back; the other bits read 0 (R20). -/
def WindowMode.toWord (m : WindowMode) : Word :=
  (0#9 ++ m.cells ++ BitVec.ofBool (m.target == .staged) ++ BitVec.ofBool (m.plane == .attributes) ++
    BitVec.ofBool (m.direction == .descending) ++ BitVec.ofBool (m.traversal == .rowFirst) : BitVec 16)

/-! ### Lane settings (R126, R128, R174) -/

/-- Whether a lane's field is in a register: L0 to L7 in A, L8 to L15 in B (R126). -/
def halfCovers (h : Half) (n : Lane) : Bool :=
  match h with
  | .a => n.val < 8
  | .b => 8 ≤ n.val

/-- Lane n, or n + 8, occupies bits 2n + 1 to 2n (R126). -/
def laneField (word : Word) (n : Lane) : BitVec 2 := word.extractLsb' (2 * (n.val % 8)) 2

/-- Whether no field of a word written to a PARK or TERM register holds 3 (R126, R128). -/
def fieldsValid (word : Word) : Bool :=
  (List.range 8).all fun i => word.extractLsb' (2 * i) 2 != 3#2

/-- The park setting of a field value; 3 is invalid and never stored (R128). -/
def Park.ofField (b : BitVec 2) : Park :=
  match b.toNat with
  | 1 => .low
  | 2 => .high
  | _ => .release

/-- The field value of a park setting (R128). -/
def Park.toField : Park → BitVec 2
  | .release => 0
  | .low => 1
  | .high => 2

/-- The termination of a field value; 3 is invalid and never stored (R126). -/
def Termination.ofField (b : BitVec 2) : Termination :=
  match b.toNat with
  | 1 => .pullUp
  | 2 => .pullDown
  | _ => .none

/-- The field value of a termination (R126). -/
def Termination.toField : Termination → BitVec 2
  | .none => 0
  | .pullUp => 1
  | .pullDown => 2

/-- The eight fields of a PARK or TERM register as it reads back (R126, R128). -/
def fieldsWord (h : Half) (f : Lane → BitVec 2) : Word :=
  match h with
  | .a => (f 7 ++ f 6 ++ f 5 ++ f 4 ++ f 3 ++ f 2 ++ f 1 ++ f 0 : BitVec 16)
  | .b => (f 15 ++ f 14 ++ f 13 ++ f 12 ++ f 11 ++ f 10 ++ f 9 ++ f 8 : BitVec 16)

/-! ### Status words -/

/-- The sequencer state field of STATUS (R171). -/
def SeqState.toBits : SeqState → BitVec 3
  | .idle => 0
  | .armed => 1
  | .head => 2
  | .loop => 3
  | .tail => 4
  | .halted => 5

/-- STATUS (R171). -/
def State.statusWord (s : State) : Word :=
  (0#8 ++ BitVec.ofBool s.pm.fill.isSome ++ BitVec.ofBool s.pm.sweep.isSome ++
    BitVec.ofBool s.run.pendingOffset.isSome ++ BitVec.ofBool s.run.stopMark ++
    BitVec.ofBool (s.play.phase == .waiting) ++ s.run.seq.toBits : BitVec 16)

/-- The outcome code (R169). -/
def CmdOutcome.toBits : CmdOutcome → BitVec 3
  | .accepted => 0
  | .refusedState => 1
  | .refusedBusy => 2
  | .refusedLayout => 3
  | .refusedWindow => 4
  | .empty => 5
  | .dropped => 6
  | .unknown => 7

/-- OUTCOME: the outcome code in bits 2:0 and the serial in bits 7:4 (R169). -/
def HostBus.outcomeWord (b : HostBus) : Word := (0#8 ++ b.serial ++ 0#1 ++ b.outcome.toBits : BitVec 16)

/-- How many entries the closed batches hold. -/
def UpdateQueue.closedEntries (q : UpdateQueue) : Nat := (q.closed.map fun b => b.entries.length).sum

/-- Open batch entries; 0 with none open (R59). -/
def UpdateQueue.openEntries (q : UpdateQueue) : Nat :=
  match q.openBatch with
  | some b => b.entries.length
  | none => 0

/-- Entries held: open and closed batches together (R59). -/
def UpdateQueue.held (q : UpdateQueue) : Nat := q.closedEntries + q.openEntries

/-- Damaged: whether the open batch is damaged; no with none open (R59). -/
def UpdateQueue.damaged (q : UpdateQueue) : Bool :=
  match q.openBatch with
  | some b => b.damaged
  | none => false

/-- QUEUE_STATUS (R172). -/
def UpdateQueue.statusWord (q : UpdateQueue) : Word :=
  (BitVec.ofBool q.damaged ++ BitVec.ofBool q.openBatch.isSome ++ BitVec.ofNat 7 q.closed.length ++
    BitVec.ofNat 7 q.held : BitVec 16)

/-- QUEUE_OPEN: the open batch's number, or with none open the number the next batch will take, and its entries (R59, R172). -/
def UpdateQueue.openWord (q : UpdateQueue) : Word :=
  let number := match q.openBatch with
    | some b => b.number
    | none => q.next
  (0#1 ++ BitVec.ofNat 7 q.openEntries ++ number : BitVec 16)

/-! ### Fail record words (R175) -/

/-- The kind bit of LOG_INFO (R175). -/
def FailKind.toBit : FailKind → BitVec 1
  | .compare => 0
  | .waitTimeout => 1

/-- The region field of LOG_INFO (R175). -/
def Region.toBits : Region → BitVec 2
  | .head => 1
  | .loop => 2
  | .tail => 3

/-- LOG_INFO of a record (R175). -/
def FailRecord.infoWord (r : FailRecord) : Word :=
  (0#12 ++ BitVec.ofBool r.pass.isSome ++ r.region.toBits ++ r.kind.toBit : BitVec 16)

/-- The fail policy of the value in FAIL_POLICY bits 1:0; 3 is invalid (R146). -/
def FailPolicy.ofWord (word : Word) : Option FailPolicy :=
  match (word.extractLsb' 0 2).toNat with
  | 0 => some .continue
  | 1 => some .stop
  | 2 => some .halt
  | _ => none

/-- FAIL_POLICY as it reads back (R146). -/
def FailPolicy.toWord : FailPolicy → Word
  | .continue => 0
  | .stop => 1
  | .halt => 2

end Sys2Proof.Machine
end

