-- ==== Sys2Proof/Machine/Ops.lean ====
section
/-! DEFINITION. The operations that several blocks share: reading and writing pattern memory, and how a bus cycle, a register
write and a command are taken. -/

namespace Sys2Proof.Machine

/-! ### Pattern memory -/

/-- The row a memory holds under a number; an unlisted row has the reset contents (R1). -/
def Memory.lookup : Memory → Nat → RowData
  | [], _ => .reset
  | (k, v) :: m, r => if k = r then v else Memory.lookup m r

/-- A row put into the list at its place. -/
def Memory.insert : Memory → Nat → RowData → Memory
  | [], r, v => [(r, v)]
  | (k, w) :: m, r, v =>
    if r < k then (r, v) :: (k, w) :: m
    else if r = k then (r, v) :: m
    else (k, w) :: Memory.insert m r v

/-- A row replaced. Writing the reset contents removes the entry, so that equal memories are equal lists. -/
def Memory.store (m : Memory) (r : Nat) (v : RowData) : Memory :=
  if v = .reset then m.filter fun e => e.1 != r else Memory.insert m r v

/-- The canonical form: row numbers strictly rising and below 4096, no entry equal to the reset contents. -/
def Memory.wf (m : Memory) : Bool :=
  decide (m.Pairwise fun a b => a.1 < b.1) && m.all fun e => decide (e.1 < 4096) && decide (e.2 ≠ .reset)

/-- A row as it stands (R7). -/
def Memory.row (m : Memory) (r : RowNum) : RowData := m.lookup r.val

/-- The code of one cell (R6). -/
def Memory.cell (m : Memory) (r : RowNum) (n : Lane) : CellCode := (m.row r).cells.get n

/-- The attribute record of one row (R6). -/
def Memory.attributes (m : Memory) (r : RowNum) : Attributes := (m.row r).attributes

/-- A whole row written (R9). -/
def Memory.writeRow (m : Memory) (r : RowNum) (v : RowData) : Memory := m.store r.val v

/-- One cell written; the other cells of the row and its attribute record keep what they held (R5). -/
def Memory.writeCell (m : Memory) (r : RowNum) (n : Lane) (c : CellCode) : Memory :=
  m.writeRow r { m.row r with cells := (m.row r).cells.set n c }

/-- An attribute record is written whole (R3). -/
def Memory.writeAttributes (m : Memory) (r : RowNum) (a : Attributes) : Memory :=
  m.writeRow r { m.row r with attributes := a }

/-- Cell writes taken in order; the last write to a cell stays (R4, R5). -/
def Memory.writeCells (m : Memory) (ts : List Triple) : Memory :=
  ts.foldl (fun m t => m.writeCell t.row t.lane t.code) m

/-- The writes of one queue entry (R8). -/
def Memory.apply (m : Memory) : Entry → Memory
  | .cells ts => m.writeCells ts
  | .attributes r a => m.writeAttributes r a

/-- How many cell triples or attribute records an entry writes (R64). -/
def Entry.writes : Entry → Nat
  | .cells ts => ts.length
  | .attributes _ _ => 1

/-! ### Bus cycles -/

/-- While RESET_N is low the part takes no bus cycle (R165, R176). -/
def State.busCycle (s : State) (f : State → State) : State := if s.pins.resetLow then s else f s

/-- A write to a writable register other than EVENTS: during the sweep it is refused with ACCERR (R10), otherwise its owner takes
it. -/
def State.regWrite (s : State) (f : State → State) : State :=
  s.busCycle fun s => if s.pm.sweep.isSome then s.raise .accErr else f s

/-- OUTCOME takes the outcome of the command and the serial advances by 1, from 15 to 0 (R169). -/
def State.report (s : State) (o : CmdOutcome) : State :=
  { s with bus := { s.bus with outcome := o, serial := s.bus.serial + 1 } }

/-- A write to COMMAND: during the sweep every code is refused with REFUSED_BUSY (R10), otherwise the owner carries it out or
refuses it and its answer is placed in OUTCOME (R168, R169). -/
def State.command (s : State) (f : State → State × CmdOutcome) : State :=
  s.busCycle fun s =>
    if s.pm.sweep.isSome then s.report .refusedBusy
    else (f s).1.report (f s).2

end Sys2Proof.Machine
end

