-- ==== Sys2Proof/Machine/StagedUpdates.lean ====
section
/-! DEFINITION. The staged-update queue (chapter 3): taking staged writes, batches, commit points, and the commands CLOSE_BATCH,
DISCARD_BATCH, FLUSH_QUEUE and COMMIT. -/

namespace Sys2Proof.Machine

/-! ### Taking staged writes -/

/-- An entry is taken when the open batch is not damaged and the queue holds fewer than 64 entries (R44). -/
def UpdateQueue.takes (q : UpdateQueue) : Bool := !q.damaged && decide (q.held < 64)

/-- A batch opened with the next batch number, which then advances by 1, from 255 to 0 (R43). -/
def UpdateQueue.openWith (q : UpdateQueue) (entries : List Entry) (damaged : Bool) : UpdateQueue :=
  { q with openBatch := some ⟨q.next, entries, damaged⟩, next := q.next + 1 }

/-- A taken entry opens a batch or joins the open one at its newest end (R44). -/
def UpdateQueue.append (q : UpdateQueue) (e : Entry) : UpdateQueue :=
  match q.openBatch with
  | none => q.openWith [e] false
  | some b => { q with openBatch := some { b with entries := b.entries ++ [e] } }

/-- A refused entry leaves the open batch damaged, or opens an empty damaged one (R45); an open batch already damaged does not
change (R46). -/
def UpdateQueue.refuse (q : UpdateQueue) : UpdateQueue :=
  match q.openBatch with
  | none => q.openWith [] true
  | some b => { q with openBatch := some { b with damaged := true } }

/-! ### Closing, discarding and flushing -/

/-- CLOSE BATCH at the queue: an undamaged batch becomes the newest closed one (R47), a damaged one is dropped whole (R48). -/
def State.closeBatch (s : State) : State × CmdOutcome :=
  match s.queue.openBatch with
  | none => (s, .empty)
  | some b =>
    if b.damaged then
      (({ s with queue := { s.queue with openBatch := none } }).raise .batchDrop, .dropped)
    else
      ({ s with queue := { s.queue with closed := s.queue.closed ++ [⟨b.number, b.entries⟩], openBatch := none } },
        .accepted)

/-- DISCARD BATCH at the queue (R49). -/
def State.discardBatch (s : State) : State × CmdOutcome :=
  match s.queue.openBatch with
  | none => (s, .empty)
  | some _ => ({ s with queue := { s.queue with openBatch := none } }, .accepted)

/-- FLUSH QUEUE at the queue: every batch goes, the next batch number stays (R50). -/
def State.flushQueue (s : State) : State × CmdOutcome :=
  ({ s with queue := { s.queue with closed := [], openBatch := none } }, .accepted)

/-! ### Commit points -/

/-- The writes a commit hands to PM: batches oldest first, the entries of each in queue order (R52). -/
def UpdateQueue.committed (q : UpdateQueue) : List Entry := q.closed.flatMap fun b => b.entries

/-- The CLKIN cycles of a commit application: one for each cell triple or attribute record, plus one (R64). -/
def UpdateQueue.commitCycles (q : UpdateQueue) : Nat := (q.committed.map Entry.writes).sum + 1

/-- A commit: every closed batch is applied to PM as one commit application and leaves the queue, and COMMIT is raised once. With
no closed batch it does nothing (R51). An application that finds another in progress at PM is taken after it (R4; log entry 8). -/
def State.commitPoint (s : State) : State :=
  match s.queue.closed with
  | [] => s
  | _ :: _ =>
    ({ s with
      pm := { s.pm with
        rows := s.queue.committed.foldl Memory.apply s.pm.rows
        commits := s.pm.commits ++ [s.queue.commitCycles] }
      queue := { s.queue with closed := [] } }).raise .commit

/-- The COMMIT command: refused while a fill is in progress or the sequencer runs; otherwise a commit, EMPTY if no closed batch
was waiting (R54). -/
def State.commitCommand (s : State) : State × CmdOutcome :=
  if s.pm.fill.isSome then (s, .refusedBusy)
  else
    match s.run.seq with
    | .idle | .halted => (s.commitPoint, if s.queue.closed.isEmpty then .empty else .accepted)
    | .armed | .head | .loop | .tail => (s, .refusedState)

/-! ### The commands -/

/-- CLOSE_BATCH (R47, R48). -/
def execCloseBatch (s : State) : Host.Outcome State Fault Refusal := .next (s.command State.closeBatch)

/-- DISCARD_BATCH (R49). -/
def execDiscardBatch (s : State) : Host.Outcome State Fault Refusal := .next (s.command State.discardBatch)

/-- FLUSH_QUEUE (R50). -/
def execFlushQueue (s : State) : Host.Outcome State Fault Refusal := .next (s.command State.flushQueue)

/-- COMMIT (R54). -/
def execCommit (s : State) : Host.Outcome State Fault Refusal := .next (s.command State.commitCommand)

end Sys2Proof.Machine
end

