-- ==== Sys2Proof/Machine/AccessWindow.lean ====
section
/-! DEFINITION. The access window (chapter 2): setting it, the walk, and the transfers through DATA; the commands SET_WINDOW, SEEK,
DATA_WRITE, DATA_READ and WINDOW_REGISTER_WRITE. -/

namespace Sys2Proof.Machine

/-! ### Setting the window -/

/-- The checks of SET WINDOW on the held window (R21, step 3). -/
def HeldWindow.valid (h : HeldWindow) : Bool :=
  decide (h.rowStart.toNat ≤ 4095) && decide (h.rowEnd.toNat ≤ 4095) && decide (h.rowStart.toNat ≤ h.rowEnd.toNat) &&
    decide (h.laneStart.val ≤ h.laneEnd.val) && decide (1 ≤ h.mode.cells.toNat) && decide (h.mode.cells.toNat ≤ 5)

/-- Every field of the held window copied into a window in effect (R22). -/
def HeldWindow.inEffect (h : HeldWindow) : Window :=
  ⟨RowNum.ofSum h.rowStart.toNat, RowNum.ofSum h.rowEnd.toNat, h.laneStart, h.laneEnd, h.mode⟩

/-- The row the walk starts from (R23). -/
def Window.originRow (w : Window) : RowNum :=
  match w.mode.direction with
  | .ascending => w.rowStart
  | .descending => w.rowEnd

/-- The row the walk finishes at (R23). -/
def Window.farRow (w : Window) : RowNum :=
  match w.mode.direction with
  | .ascending => w.rowEnd
  | .descending => w.rowStart

/-- The place where the walk begins (R23). -/
def Window.origin (w : Window) : Place := ⟨w.originRow, w.laneStart⟩

/-- SET WINDOW at the window (R21, R22). -/
def State.setWindow (s : State) : State × CmdOutcome :=
  if s.pm.fill.isSome then (s, .refusedBusy)
  else if !s.window.held.valid then (s, .refusedWindow)
  else
    ({ s with window := { s.window with eff := s.window.held.inEffect, cursor := s.window.held.inEffect.origin } },
      .accepted)

/-- SEEK at the window (R23). -/
def State.seek (s : State) : State × CmdOutcome :=
  if s.pm.fill.isSome then (s, .refusedBusy)
  else ({ s with window := { s.window with cursor := s.window.eff.origin } }, .accepted)

/-- A write to a window register stores the value unchecked (R20). -/
def AccessWindow.write (w : AccessWindow) (reg : WindowReg) (value : Word) : AccessWindow :=
  match reg with
  | .rowStart => { w with held := { w.held with rowStart := value } }
  | .rowEnd => { w with held := { w.held with rowEnd := value } }
  | .lanes => { w with held := { w.held with laneStart := laneStartOf value, laneEnd := laneEndOf value } }
  | .mode => { w with held := { w.held with mode := .ofWord value } }
  | .fillValue => { w with fillValue := value }

/-- A window register write, in every sequencer state and while a fill is in progress (R20). -/
def State.writeWindow (s : State) (reg : WindowReg) (value : Word) : State :=
  { s with window := s.window.write reg value }

/-! ### The walk -/

/-- The next row in the row direction (R24). -/
def Window.nextRow (w : Window) (r : RowNum) : RowNum :=
  match w.mode.direction with
  | .ascending => r + 1
  | .descending => r - 1

/-- Whether a place is the last of the walk, from which a move is a wrap (R24, R25, R26). -/
def Window.atLast (w : Window) (p : Place) : Bool :=
  match w.mode.plane with
  | .cells => p.row == w.farRow && p.lane == w.laneEnd
  | .attributes => p.row == w.farRow

/-- One move forward along the walk (R24, R25, R26); from the last place the cursor returns to the origin (R27). -/
def Window.advance (w : Window) (p : Place) : Place :=
  if w.atLast p then w.origin
  else
    match w.mode.plane, w.mode.traversal with
    | .attributes, _ => ⟨w.nextRow p.row, p.lane⟩
    | .cells, .laneFirst =>
      if p.lane = w.laneEnd then ⟨w.nextRow p.row, w.laneStart⟩ else ⟨p.row, p.lane + 1⟩
    | .cells, .rowFirst =>
      if p.row = w.farRow then ⟨w.originRow, p.lane + 1⟩ else ⟨w.nextRow p.row, p.lane⟩

/-- The place after some moves forward. -/
def Window.after (w : Window) (p : Place) : Nat → Place
  | 0 => p
  | n + 1 => w.after (w.advance p) n

/-- The places of a transfer: its first place and those one, two and more moves on (R29). -/
def Window.places (w : Window) (p : Place) : Nat → List Place
  | 0 => []
  | n + 1 => p :: w.places (w.advance p) n

/-- The cursor makes its moves, and WRAP is raised if one of them is a wrap (R27). -/
def State.moveCursor (s : State) (n : Nat) : State :=
  ({ s with window := { s.window with cursor := s.window.eff.after s.window.cursor n } }).raiseIf
    ((s.window.eff.places s.window.cursor n).any s.window.eff.atLast) .wrap

/-! ### Transfers -/

/-- How many places a transfer touches: k in the cells plane, one record in the attribute plane (R29, R31). -/
def Window.count (w : Window) : Nat :=
  match w.mode.plane with
  | .cells => w.mode.cells.toNat
  | .attributes => 1

/-- Whether the window refuses a DATA read (R28). -/
def State.readRefused (s : State) : Bool := s.pm.sweep.isSome || s.pm.fill.isSome || !s.pm.commits.isEmpty

/-- Whether the window refuses a DATA write. In the STAGED target a commit application in progress does not refuse it (R28). -/
def State.writeRefused (s : State) : Bool :=
  s.pm.sweep.isSome || s.pm.fill.isSome || (s.window.eff.mode.target == .direct && !s.pm.commits.isEmpty)

/-- The positions of a cell transfer: its places paired with the values of cells 0, 1, 2 and on; none for a value of 6 or 7
(R29). -/
def AccessWindow.positions (w : AccessWindow) (word : Word) : List (Place × Option CellCode) :=
  (w.eff.places w.cursor w.eff.count).zipIdx.map fun p => (p.1, CellCode.ofBits (cellField word p.2))

/-- The (row, lane, code) triple of each position whose value is a valid code, in position order (R30, R34). -/
def AccessWindow.triples (w : AccessWindow) (word : Word) : List Triple :=
  (w.positions word).filterMap fun p => p.2.map fun c => ⟨p.1.row, p.1.lane, c⟩

/-- Whether a transfer holds a position with an invalid value (R30). -/
def AccessWindow.hasInvalid (w : AccessWindow) (word : Word) : Bool := (w.positions word).any fun p => p.2.isNone

/-- A direct cell write: the valid positions reach PM as one direct write transfer, and the cursor makes its moves (R30). -/
def State.writeCellsDirect (s : State) (word : Word) : State :=
  (({ s with pm := { s.pm with rows := s.pm.rows.writeCells (s.window.triples word) } }).raiseIf
    (s.window.hasInvalid word) .codeErr).moveCursor s.window.eff.count

/-- A direct attribute write: the record of the cursor row is replaced whole, and the cursor makes one move (R31). -/
def State.writeAttributesDirect (s : State) (word : Word) : State :=
  ({ s with pm := { s.pm with
    rows := s.pm.rows.writeAttributes s.window.cursor.row (.ofWord word) } }).moveCursor 1

/-- An entry offered to the queue: if it is taken the cursor makes its moves (R44); if it is refused the cursor stays and QFULL is
raised (R45, R46). -/
def State.offer (s : State) (e : Entry) (moves : Nat) : State :=
  if s.queue.takes then ({ s with queue := s.queue.append e }).moveCursor moves
  else ({ s with queue := s.queue.refuse }).raise .qFull

/-- A staged cell write: the codes are examined first (CODEERR), then the entry is offered (R34); with no valid code nothing is
offered and the cursor makes its moves (R35). -/
def State.writeCellsStaged (s : State) (word : Word) : State :=
  let s₁ := s.raiseIf (s.window.hasInvalid word) .codeErr
  match s.window.triples word with
  | [] => s₁.moveCursor s.window.eff.count
  | t :: ts => s₁.offer (.cells (t :: ts)) s.window.eff.count

/-- A staged attribute write offers an attribute entry for the cursor row (R36). -/
def State.writeAttributesStaged (s : State) (word : Word) : State :=
  s.offer (.attributes s.window.cursor.row (.ofWord word)) 1

/-- A DATA write: refused with ACCERR (R28), or carried out by the target and the plane of the window in effect. -/
def State.writeData (s : State) (word : Word) : State :=
  if s.writeRefused then s.raise .accErr
  else
    match s.window.eff.mode.target, s.window.eff.mode.plane with
    | .direct, .cells => s.writeCellsDirect word
    | .direct, .attributes => s.writeAttributesDirect word
    | .staged, .cells => s.writeCellsStaged word
    | .staged, .attributes => s.writeAttributesStaged word

/-- The word a DATA read returns: the codes of its places, or the record of the cursor row (R32, R33). -/
def State.dataWord (s : State) : Word :=
  match s.window.eff.mode.plane with
  | .cells =>
    cellsWord ((s.window.eff.places s.window.cursor s.window.eff.count).map fun p => s.pm.rows.cell p.row p.lane)
  | .attributes => (s.pm.rows.attributes s.window.cursor.row).toWord

/-- A DATA read returns a word (R32). -/
def State.answerRead (s : State) (word : Word) : State := { s with bus := { s.bus with readWord := some word } }

/-- A DATA read: refused, it returns 0x0000 and raises ACCERR (R28); otherwise it returns what PM holds and the cursor makes its
moves (R32, R33). -/
def State.readData (s : State) : State :=
  if s.readRefused then (s.answerRead 0).raise .accErr
  else (s.answerRead s.dataWord).moveCursor s.window.eff.count

/-! ### The commands -/

/-- SET_WINDOW (R21). -/
def execSetWindow (s : State) : Host.Outcome State Fault Refusal := .next (s.command State.setWindow)

/-- SEEK (R23). -/
def execSeek (s : State) : Host.Outcome State Fault Refusal := .next (s.command State.seek)

/-- DATA_WRITE (R29). -/
def execDataWrite (word : Word) (s : State) : Host.Outcome State Fault Refusal :=
  .next (s.busCycle fun s => s.writeData word)

/-- DATA_READ (R32). -/
def execDataRead (s : State) : Host.Outcome State Fault Refusal := .next (s.busCycle State.readData)

/-- WINDOW_REGISTER_WRITE (R20). -/
def execWindowRegisterWrite (reg : WindowReg) (value : Word) (s : State) : Host.Outcome State Fault Refusal :=
  .next (s.regWrite fun s => s.writeWindow reg value)

end Sys2Proof.Machine
end

