-- ==== Sys2Proof/Machine/Events.lean ====
section
/-! DEFINITION. The event unit's own registers (chapter 9): the commands EVENTS_WRITE and EVENT_ENABLE_WRITE. -/

namespace Sys2Proof.Machine

/-- A write to EVENTS is taken in every state, during the sweep too (R158, R10). -/
def State.writeEvents (s : State) (ones : Word) : State :=
  s.busCycle fun s => { s with events := s.events.clear ones }

/-- A write to EVENT_ENABLE replaces all sixteen enables (R161). -/
def State.writeEnables (s : State) (value : Word) : State := { s with events := { s.events with enables := value } }

/-- EVENTS_WRITE (R158). -/
def execEventsWrite (value : Word) (s : State) : Host.Outcome State Fault Refusal := .next (s.writeEvents value)

/-- EVENT_ENABLE_WRITE (R161). -/
def execEventEnableWrite (value : Word) (s : State) : Host.Outcome State Fault Refusal :=
  .next (s.regWrite fun s => s.writeEnables value)

end Sys2Proof.Machine
end

