-- ==== Sys2Proof/Machine/LaneUnit.lean ====
section
/-! DEFINITION. The lane unit (chapter 7): from effective state to pin, termination and keeper, park, hold, sampling, and the
commands PARK_WRITE, TERM_WRITE, UUT_LANE_DRIVE_CHANGE and PULLED_LEVEL_REACHED. -/

namespace Sys2Proof.Machine

/-! ### From effective state to pin -/

/-- The level an effective state drives, if it drives (R124). -/
def LaneState.driven : LaneState → Option Bool
  | .drivenLow => some false
  | .drivenHigh => some true
  | .released | .expectingLow | .expectingHigh => none

/-- The level of the part's driver on a lane, if it is on. While RESET_N is low every driver is off (R134). -/
def LaneUnit.driver (u : LaneUnit) (n : Lane) : Option Bool :=
  if u.active then (u.effective.get n).driven else none

/-- The level a termination pulls towards (R126). -/
def Termination.level : Termination → Option Bool
  | .none => .none
  | .pullUp => some true
  | .pullDown => some false

/-- The level the connected termination pulls a lane towards. A driven lane has its termination disconnected (R124), and while
RESET_N is low every termination is disconnected (R134). -/
def LaneUnit.pull (u : LaneUnit) (n : Lane) : Option Bool :=
  if u.active && (u.driver n).isNone then (u.term.get n).level else none

/-- The level the unit under test drives a lane at, if it drives (R127). -/
def uutLevel : UutDrive → Option Bool
  | .silent => none
  | .low => some false
  | .high => some true

/-- The pin level of a lane whose keeper holds `k`, in the order of strength of R127: the part's driver, the unit under test, the
termination, the keeper. None while a termination is still pulling the pin to its level (log entry 10). A pin that already
stands at the pulled level is at it (DEDUCED, log entry 10). -/
def LaneUnit.pinLevelFrom (u : LaneUnit) (k : Bool) (n : Lane) : Option Bool :=
  match u.driver n with
  | some b => some b
  | none =>
    match uutLevel (u.uut.get n) with
    | some b => some b
    | none =>
      match u.pull n with
      | some p => if k = p then some p else none
      | none => some k

/-- The pin level of a lane (R124, R127). -/
def LaneUnit.pinLevel (u : LaneUnit) (n : Lane) : Option Bool := u.pinLevelFrom (u.keeper.get n) n

/-- The level a keeper starts from when a lane changes: the level it held, but where the termination was still pulling the pin
and is changed or taken away midway, the level the pin happens to have (R127; free value, log entry 10). -/
def LaneUnit.keptLevel (old new : LaneUnit) (free : Nat) (n : Lane) : Bool :=
  if old.pinLevel n = none ∧ new.pull n ≠ old.pull n then Config.leftMidway free n else old.keeper.get n

/-- Each keeper follows its pin whenever the pin is at a definite level, and holds it there when nothing else acts (R127). -/
def LaneUnit.settle (old new : LaneUnit) (free : Nat) : LaneUnit :=
  { new with
    keeper := Lanes.ofFn fun n =>
      (new.pinLevelFrom (old.keptLevel new free n) n).getD (old.keptLevel new free n) }

/-- One request taken by the lane unit: all lanes change in the event, and the keepers follow (R124, R127). -/
def State.setLanes (s : State) (f : LaneUnit → LaneUnit) : State :=
  { s with lanes := s.lanes.settle (f s.lanes) s.free, free := s.free + 1 }

/-! ### Latch, park and hold -/

/-- The effective state of a park setting (R128). -/
def Park.state : Park → LaneState
  | .release => .released
  | .low => .drivenLow
  | .high => .drivenHigh

/-- The park states of all sixteen lanes (R129). -/
def LaneUnit.parkStates (u : LaneUnit) : Lanes LaneState := Lanes.ofFn fun n => (u.park.get n).state

/-- A park request: every lane takes its park state (R129). -/
def LaneUnit.parkAll (u : LaneUnit) : LaneUnit := { u with effective := u.parkStates }

/-- The held state of a lane on entry to HALTED (R131). -/
def LaneState.held : LaneState → LaneState
  | .drivenLow => .drivenLow
  | .drivenHigh => .drivenHigh
  | .released | .expectingLow | .expectingHigh => .released

/-- A hold request: driven lanes stay driven, expecting lanes become RELEASED (R131). -/
def LaneUnit.holdAll (u : LaneUnit) : LaneUnit := { u with effective := Lanes.ofFn fun n => (u.effective.get n).held }

/-- A latch request: every lane takes its resolved state (R125). -/
def LaneUnit.latch (u : LaneUnit) (states : Lanes LaneState) : LaneUnit := { u with effective := states }

/-- A park request from run control (R129). -/
def State.parkLanes (s : State) : State := s.setLanes LaneUnit.parkAll

/-- A hold request from run control (R131). -/
def State.holdLanes (s : State) : State := s.setLanes LaneUnit.holdAll

/-- A latch request from row playback (R125). -/
def State.latchLanes (s : State) (states : Lanes LaneState) : State := s.setLanes fun u => u.latch states

/-! ### Sampling and readback -/

/-- The levels of all sixteen pins as the sampler reads them: a driven lane at the level its driver holds, an undriven lane at the
level R127 gives, either level while its termination is still pulling it (R132). -/
def State.sampledLevels (s : State) : Lanes Bool :=
  Lanes.ofFn fun n => (s.lanes.pinLevel n).getD (Config.sampleWhileMoving s.free n)

/-- The sample of a tick (R132). -/
def State.takeSample (s : State) : State :=
  { s with lanes := { s.lanes with sample := s.sampledLevels }, free := s.free + 1 }

/-- Whether the part and the unit under test drive a lane against each other (R133). -/
def LaneUnit.contended (u : LaneUnit) (n : Lane) : Bool :=
  match u.driver n, uutLevel (u.uut.get n) with
  | some a, some b => a != b
  | _, _ => false

/-- The levels LANE_IN reads, directly at the pins (R133). -/
def State.laneIn (s : State) : Lanes Bool :=
  Lanes.ofFn fun n =>
    if s.lanes.contended n then Config.contendedLevel s.free n
    else (s.lanes.pinLevel n).getD (Config.laneInWhileMoving s.free n)

/-- LANE_DRIVE: 1 while the effective state is driven (R133). -/
def State.laneDrive (s : State) : Lanes Bool := Lanes.ofFn fun n => (s.lanes.effective.get n).driven.isSome

/-! ### The commands -/

/-- The park settings with the eight of one register replaced (R128). -/
def LaneUnit.withPark (u : LaneUnit) (h : Half) (word : Word) : LaneUnit :=
  { u with park := Lanes.ofFn fun n => if halfCovers h n then Park.ofField (laneField word n) else u.park.get n }

/-- A park of the eight lanes of one register (R128). -/
def LaneUnit.parkHalf (u : LaneUnit) (h : Half) : LaneUnit :=
  { u with effective := Lanes.ofFn fun n => if halfCovers h n then (u.park.get n).state else u.effective.get n }

/-- The termination settings with the eight of one register replaced (R126). -/
def LaneUnit.withTerm (u : LaneUnit) (h : Half) (word : Word) : LaneUnit :=
  { u with term := Lanes.ofFn fun n => if halfCovers h n then Termination.ofField (laneField word n) else u.term.get n }

/-- A PARK write: ignored whole with ACCERR if a field holds 3; otherwise stored, and in IDLE or ARMED applied to the lanes of the
register at once (R128). -/
def State.writePark (s : State) (h : Half) (word : Word) : State :=
  if !fieldsValid word then s.raise .accErr
  else if s.run.seq = .idle ∨ s.run.seq = .armed then s.setLanes fun u => (u.withPark h word).parkHalf h
  else s.setLanes fun u => u.withPark h word

/-- A TERM write: ignored whole with ACCERR if a field holds 3; otherwise the eight settings change, and on undriven lanes the new
termination is connected at once (R126). -/
def State.writeTerm (s : State) (h : Half) (word : Word) : State :=
  if !fieldsValid word then s.raise .accErr else s.setLanes fun u => u.withTerm h word

/-- The unit under test changes what it does to a lane, and the keeper follows the pin (R127). -/
def State.changeUutDrive (s : State) (n : Lane) (d : UutDrive) : State :=
  s.setLanes fun u => { u with uut := u.uut.set n d }

/-- A lane that its termination is still pulling reaches the pulled level, and the keeper follows it (R127). On any other lane
there is no level left to reach (log entry 3). -/
def State.reachPulledLevel (s : State) (n : Lane) : State :=
  match s.lanes.pinLevel n, s.lanes.pull n with
  | none, some p => { s with lanes := { s.lanes with keeper := s.lanes.keeper.set n p } }
  | _, _ => s

/-- PARK_WRITE (R128). -/
def execParkWrite (h : Half) (value : Word) (s : State) : Host.Outcome State Fault Refusal :=
  .next (s.regWrite fun s => s.writePark h value)

/-- TERM_WRITE (R126). -/
def execTermWrite (h : Half) (value : Word) (s : State) : Host.Outcome State Fault Refusal :=
  .next (s.regWrite fun s => s.writeTerm h value)

/-- UUT_LANE_DRIVE_CHANGE (R127). -/
def execUutLaneDriveChange (n : Lane) (d : UutDrive) (s : State) : Host.Outcome State Fault Refusal :=
  .next (s.changeUutDrive n d)

/-- PULLED_LEVEL_REACHED (R127). -/
def execPulledLevelReached (n : Lane) (s : State) : Host.Outcome State Fault Refusal :=
  .next (s.reachPulledLevel n)

end Sys2Proof.Machine
end

