-- ==== Sys2Proof/Machine/PatternMemory.lean ====
section
/-! DEFINITION. Pattern memory's own operations (chapter 1): the initialization sweep, the fill and the end of a commit application;
the commands SWEEP_ROW_WRITE, FILL_ROW_WRITE, COMMIT_APPLICATION_END, FILL and FILL_ABORT. -/

namespace Sys2Proof.Machine

/-! ### The initialization sweep -/

/-- One sweep row write: the row takes its reset contents (R9); after row 4095 the sweep is complete and INITDONE is raised
(R11). With no sweep in progress there is no row to write (log entry 3). -/
def State.sweepRow (s : State) : State :=
  match s.pm.sweep with
  | none => s
  | some r =>
    if r = 4095 then
      ({ s with pm := { s.pm with rows := s.pm.rows.writeRow r .reset, sweep := none } }).raise .initDone
    else { s with pm := { s.pm with rows := s.pm.rows.writeRow r .reset, sweep := some (r + 1) } }

/-! ### The fill -/

/-- The fill value of the window in effect and FILL_VALUE; none for an invalid code in the cells plane (R12). -/
def AccessWindow.fillOperand (w : AccessWindow) : Option FillValue :=
  match w.eff.mode.plane with
  | .cells => (CellCode.ofBits (w.fillValue.extractLsb' 0 3)).map FillValue.cells
  | .attributes => some (.attributes (.ofWord w.fillValue))

/-- The first row of a fill: row start under ASCENDING, row end under DESCENDING (R13). -/
def firstFillRow (w : Window) : RowNum :=
  match w.mode.direction with
  | .ascending => w.rowStart
  | .descending => w.rowEnd

/-- FILL at pattern memory: refused while a fill is in progress or for an invalid code; otherwise the fill takes its own copy of
the window and the value (R12). -/
def State.fillCommand (s : State) : State × CmdOutcome :=
  if s.pm.fill.isSome then (s, .refusedBusy)
  else
    match s.window.fillOperand with
    | none => (s, .refusedWindow)
    | some v =>
      let w := s.window.eff
      ({ s with pm := { s.pm with
          fill := some ⟨w.rowStart, w.rowEnd, w.laneStart, w.laneEnd, w.mode.direction, v, firstFillRow w, false⟩ } },
        .accepted)

/-- The fill when FILL ABORT or SOFT RESET ends it: it goes on to write the row it has begun, if any, and otherwise ends at once
(R17, R18). A fill already ending has its row begun. A fill has no row begun while PM carries out a commit application, which it
takes between two fill row writes (R16); at any other time whether it has one is the free value (log entry 6). -/
def PatternMemory.fillAfterAbort (p : PatternMemory) (free : Nat) : Option Fill :=
  p.fill.bind fun f =>
    if f.ending then some f
    else if p.commits.isEmpty && Config.fillRowBegun free then some { f with ending := true }
    else none

/-- FILL ABORT at pattern memory: EMPTY with no fill in progress; otherwise the fill is ended, and a second FILL ABORT while the first
is still finishing changes nothing (R17). -/
def State.fillAbort (s : State) : State × CmdOutcome :=
  match s.pm.fill with
  | none => (s, .empty)
  | some f =>
    if f.ending then (s, .accepted)
    else ({ s with pm := { s.pm with fill := s.pm.fillAfterAbort s.free }, free := s.free + 1 }, .accepted)

/-- The row a fill row write leaves: the lanes from lane start to lane end take the code and the others keep theirs, or the
attribute record is replaced (R13). -/
def Fill.write (f : Fill) (row : RowData) : RowData :=
  match f.value with
  | .cells c =>
    { row with cells := Lanes.ofFn fun n => if f.laneStart ≤ n ∧ n ≤ f.laneEnd then c else row.cells.get n }
  | .attributes a => { row with attributes := a }

/-- The last row of a fill: row end under ASCENDING, row start under DESCENDING (R13). -/
def Fill.lastRow (f : Fill) : RowNum :=
  match f.direction with
  | .ascending => f.rowEnd
  | .descending => f.rowStart

/-- The row a fill begins after its present one (R13). -/
def Fill.nextRow (f : Fill) : RowNum :=
  match f.direction with
  | .ascending => f.row + 1
  | .descending => f.row - 1

/-- One fill row write (R13). After FILL ABORT or SOFT RESET the fill ends with this row and without FILLDONE (R17, R18); after
its last row it ends with FILLDONE (R13). PM takes no fill row write before a commit application in progress is carried out (1.2,
R4, R16): the fill stays at its row. With no fill in progress there is no row to write (log entry 3). -/
def State.fillRow (s : State) : State :=
  match s.pm.fill with
  | none => s
  | some f =>
    let rows := s.pm.rows.writeRow f.row (f.write (s.pm.rows.row f.row))
    if !s.pm.commits.isEmpty then s
    else if f.ending then { s with pm := { s.pm with rows := rows, fill := none } }
    else if f.row = f.lastRow then ({ s with pm := { s.pm with rows := rows, fill := none } }).raise .fillDone
    else { s with pm := { s.pm with rows := rows, fill := some { f with row := f.nextRow } } }

/-! ### The end of a commit application -/

/-- When no commit application is in progress any more, a first latch that waited for it has been made (R65; log entry 9). -/
def State.releaseStart (s : State) : State :=
  if s.pm.commits.isEmpty then { s with timebase := { s.timebase with startHeld := false } } else s

/-- The oldest commit application in progress finishes (R64), whatever cycles of it are left: DESIGN CHOICE, log entry 30. With none
in progress there is nothing to finish (log entry 3). -/
def State.endCommitApplication (s : State) : State :=
  match s.pm.commits with
  | [] => s
  | _ :: rest => ({ s with pm := { s.pm with commits := rest } }).releaseStart

/-! ### The commands -/

/-- SWEEP_ROW_WRITE (R9). -/
def execSweepRowWrite (s : State) : Host.Outcome State Fault Refusal := .next s.sweepRow

/-- FILL_ROW_WRITE (R13). -/
def execFillRowWrite (s : State) : Host.Outcome State Fault Refusal := .next s.fillRow

/-- COMMIT_APPLICATION_END (R64): the oldest application ends at once (DESIGN CHOICE, log entry 30). -/
def execCommitApplicationEnd (s : State) : Host.Outcome State Fault Refusal := .next s.endCommitApplication

/-- FILL (R12). -/
def execFill (s : State) : Host.Outcome State Fault Refusal := .next (s.command State.fillCommand)

/-- FILL_ABORT (R17). -/
def execFillAbort (s : State) : Host.Outcome State Fault Refusal := .next (s.command State.fillAbort)

end Sys2Proof.Machine
end

