-- ==== Sys2Proof/Machine/Timebase.lean ====
section
/-! DEFINITION. The timebase (chapter 4): division and period, the gate, the stamp, start and stop requests; the commands
TIMEBASE_WRITE and GATE_CHANGE. -/

namespace Sys2Proof.Machine

/-- D, the division: 2 to the exponent held in TB_PRESCALE (R71). -/
def Timebase.division (t : Timebase) : Nat := 2 ^ t.prescale.toNat

/-- P, the period in prescaled clocks (R71). -/
def Timebase.periodLength (t : Timebase) : Nat := t.period.toNat + 1

/-- The gate holds when it is enabled and the GATE pin is at the hold level (R68). -/
def State.gateHolds (s : State) : Bool := s.timebase.gateEnabled && (s.pins.gate == s.timebase.holdHigh)

/-- The start request: counts and stamp cleared, counting begins (R65). -/
def Timebase.start (t : Timebase) : Timebase :=
  { t with prescaleCount := 0, periodCount := 0, stamp := 0, counting := true }

/-- The stop request: counting stops, the counts and the stamp keep their values (R66). -/
def Timebase.stop (t : Timebase) : Timebase := { t with counting := false, startHeld := false }

/-- A start request from run control (R65). -/
def State.startTimebase (s : State) : State := { s with timebase := s.timebase.start }

/-- A stop request from run control (R66). -/
def State.stopTimebase (s : State) : State := { s with timebase := s.timebase.stop }

/-- The stamp advances by 1 at each tick and saturates at 4294967295 (R70). -/
def Timebase.advanceStamp (t : Timebase) : Timebase :=
  { t with stamp := if t.stamp = 0xFFFFFFFF then t.stamp else t.stamp + 1 }

/-- The timebase takes CLKIN cycles: it is counting, the first row of the run has been latched (R65), the gate does not hold
(R68), and RESET_N is not low (R73). -/
def State.takesCycles (s : State) : Bool :=
  !s.pins.resetLow && s.timebase.counting && !s.timebase.startHeld && !s.gateHolds

/-- A completed period: both counts return to 0 (R63). -/
def Timebase.complete (t : Timebase) : Timebase := { t with prescaleCount := 0, periodCount := 0 }

/-- A period held back while the previous tick is still being taken: the counts stand at D - 1 and P - 1 (R64). -/
def Timebase.holdBack (t : Timebase) : Timebase :=
  { t with prescaleCount := t.division - 1, periodCount := t.periodLength - 1 }

/-- Whether the next counted cycle completes the period (R63). -/
def Timebase.lastCycle (t : Timebase) : Bool :=
  decide (t.division ≤ t.prescaleCount + 1) && decide (t.periodLength ≤ t.periodCount + 1)

/-- A counted cycle that does not complete the period (R63). -/
def Timebase.count (t : Timebase) : Timebase :=
  if t.prescaleCount + 1 < t.division then { t with prescaleCount := t.prescaleCount + 1 }
  else { t with prescaleCount := 0, periodCount := t.periodCount + 1 }

/-- The value a timebase register takes from a written word; the bits outside its fields are not stored (R71). -/
def Timebase.write (t : Timebase) (reg : TimebaseReg) (value : Word) : Timebase :=
  match reg with
  | .prescale => { t with prescale := value.extractLsb' 0 3 }
  | .period => { t with period := value }
  | .gateConfig => { t with gateEnabled := value.getLsbD 0, holdHigh := value.getLsbD 1 }

/-- A timebase register write is taken in IDLE and ignored with ACCERR in any other state (R72). -/
def State.writeTimebase (s : State) (reg : TimebaseReg) (value : Word) : State :=
  if s.run.seq = .idle then { s with timebase := s.timebase.write reg value } else s.raise .accErr

/-- TIMEBASE_WRITE (R72). -/
def execTimebaseWrite (reg : TimebaseReg) (value : Word) (s : State) : Host.Outcome State Fault Refusal :=
  .next (s.regWrite fun s => s.writeTimebase reg value)

/-- GATE_CHANGE (R68): the pin goes to a level; the gate then holds or lets go as GATE_CONFIG says. -/
def execGateChange (level : Bool) (s : State) : Host.Outcome State Fault Refusal :=
  .next { s with pins := { s.pins with gate := level } }

end Sys2Proof.Machine
end

