-- ==== Sys2Proof/Machine/Resets.lean ====
section
/-! DEFINITION. The three resets (00_scope.md 3): the commands POWER_ON, RESET_N_ASSERT, RESET_N_RELEASE and SOFT_RESET. -/

namespace Sys2Proof.Machine

/-- Every block at its power-on values, with the lane unit given, the input pins as they are, PM holding what it held, and the
sweep beginning at row 0 unless RESET_N is low (R9, R176). Before the sweep has reached a row its contents are not known and
cannot be observed (R9; log entry 4). Bus edges are seen against the strobes as they stand, so an edge before the release is no
cycle (R165, R176). -/
def State.powerOnValues (s : State) (lanes : LaneUnit) : State :=
  { State.reset with
    pm := ⟨s.pm.rows, if s.pins.resetLow then none else some 0, none, []⟩
    lanes := lanes
    bus := .resetWith s.pins.lines.strobes
    pins := s.pins
    free := s.free + 1
    pending := s.pending }

/-- The lane unit at power-on: every keeper begins at low and follows its pin (R134). While RESET_N is low drivers and terminations
are off. -/
def State.lanesAtPowerOn (s : State) : LaneUnit :=
  let u := { LaneUnit.reset with uut := s.lanes.uut, active := !s.pins.resetLow }
  u.settle u s.free

/-- The lane unit at the release of RESET_N: the reset values, each keeper keeping the level it held (R134). -/
def State.lanesAtRelease (s : State) : LaneUnit :=
  s.lanes.settle { LaneUnit.reset with uut := s.lanes.uut } s.free

/-- The supply is applied (R9, R134). With RESET_N low the part stays in reset until the release. -/
def State.powerOn (s : State) : State := s.powerOnValues s.lanesAtPowerOn

/-- RESET_N is taken low (R9): the sweep, the fill, the commit applications and the run stop at once, the queue and the latched
row are gone (R60, R122), the timebase stops (R73), every lane driver and termination is off (R134), flags and enables are
clear (R163), PASSMARK and MARK are low, and the data lines are not driven (R165). -/
def State.assertReset (s : State) : State :=
  let s₁ := s.setLanes fun u => { u with effective := Lanes.all .released, active := false }
  { s₁ with
    pm := { s₁.pm with sweep := none, fill := none, commits := [] }
    queue := .reset
    timebase := s₁.timebase.stop
    run := { s₁.run with seq := .idle, stopMark := false, pendingOffset := none, passmarkCycles := 0 }
    play := { s₁.play with latched := none, phase := .dwell, tickInRow := 0, waitCount := 0, markCycles := 0 }
    events := .reset
    bus := { s₁.bus with readWord := none, driven := none }
    pins := { s₁.pins with resetLow := true } }

/-- RESET_N is released: every block takes its power-on values and a new sweep begins at row 0 (R9). With the pin already high
there is no release (log entry 3). -/
def State.releaseReset (s : State) : State :=
  if s.pins.resetLow then
    ({ s with pins := { s.pins with resetLow := false } }).powerOnValues s.lanesAtRelease
  else s

/-- The lane unit at SOFT RESET: park RELEASE, termination NONE, every lane RELEASED, the keepers keeping their levels (R135). -/
def LaneUnit.softReset (u : LaneUnit) : LaneUnit :=
  { u with effective := Lanes.all .released, park := Lanes.all .release, term := Lanes.all .none }

/-- SOFT RESET: every block takes its reset in one event, and PM keeps its contents (R177). A fill in progress writes the row it has
begun, if any, and ends (R18). A commit application in progress goes on to its end (log entry 8). -/
def State.softReset (s : State) : State :=
  { s.setLanes LaneUnit.softReset with
    pm := { s.pm with fill := s.pm.fillAfterAbort s.free }
    window := .reset
    queue := .reset
    timebase := .reset
    run := .reset
    play := .reset
    compare := .reset
    events := .reset }

/-- POWER_ON (R9). -/
def execPowerOn (s : State) : Host.Outcome State Fault Refusal := .next s.powerOn

/-- RESET_N_ASSERT (R9). -/
def execResetNAssert (s : State) : Host.Outcome State Fault Refusal := .next s.assertReset

/-- RESET_N_RELEASE (R9). -/
def execResetNRelease (s : State) : Host.Outcome State Fault Refusal := .next s.releaseReset

/-- SOFT_RESET (R177): OUTCOME takes ACCEPTED and the serial advances from the value it held. -/
def execSoftReset (s : State) : Host.Outcome State Fault Refusal :=
  .next (s.command fun s => (s.softReset, .accepted))

end Sys2Proof.Machine
end

