-- ==== Sys2Proof/Machine/Playback.lean ====
section
/-! DEFINITION. What run control and row playback do to the latched row: the latch with its KEEP resolution, discarding the row, the
run start, and the ways a run leaves HEAD, LOOP and TAIL (chapters 5 and 6). -/

namespace Sys2Proof.Machine

/-! ### Latching a row -/

/-- The effective state of a cell code against the state its lane had in the previous row (R105, R106). -/
def CellCode.resolve (previous : LaneState) : CellCode → LaneState
  | .driveLow => .drivenLow
  | .driveHigh => .drivenHigh
  | .keep => previous
  | .release => .released
  | .expectLow => .expectingLow
  | .expectHigh => .expectingHigh

/-- Each cell of the incoming row resolved against the states before it (R104, step 2). -/
def resolveRow (previous : Lanes LaneState) (cells : Lanes CellCode) : Lanes LaneState :=
  Lanes.ofFn fun n => (cells.get n).resolve (previous.get n)

/-- The row latched: its dwell and wait copied, both counts 0, the phase by the wait field (R104, step 4). -/
def Playback.latch (p : Playback) (r : RowNum) (states : Lanes LaneState) (a : Attributes) : Playback :=
  { p with
    latched := some ⟨r, states, a.dwellLess1, a.wait⟩
    phase := if a.wait then .waiting else .dwell
    tickInRow := 0
    waitCount := 0 }

/-- The latch of a marked row pulses MARK for two CLKIN cycles and raises MARK (R108). -/
def State.pulseMark (s : State) : State :=
  ({ s with play := { s.play with markCycles := 2 } }).raise .mark

/-- A latch of row `r` against the states `previous` (R104): the row is read from PM as it stands, resolved, handed to the lane
unit, and its attributes are taken. CUR_ROW takes the row (R86). -/
def State.latchRow (s : State) (r : RowNum) (previous : Lanes LaneState) : State :=
  let row := s.pm.rows.row r
  let states := resolveRow previous row.cells
  let s₁ := s.latchLanes states
  let s₂ := { s₁ with play := s₁.play.latch r states row.attributes, run := { s₁.run with curRow := r } }
  if row.attributes.mark then s₂.pulseMark else s₂

/-- The states KEEP looks back at: those of the row latched before (R106). With no row latched they are the park states. -/
def State.previousStates (s : State) : Lanes LaneState :=
  match s.play.latched with
  | some row => row.states
  | none => s.lanes.parkStates

/-- The latch of the row a sum of layout values names, after another row of the run. -/
def State.latchNext (s : State) (n : Nat) : State := s.latchRow (RowNum.ofSum n) s.previousStates

/-- The latched row is discarded: nothing latched, row phase DWELL, both counts 0 (R121, R122). -/
def State.discardRow (s : State) : State :=
  { s with play := { s.play with latched := none, phase := .dwell, tickInRow := 0, waitCount := 0 } }

/-! ### The layout -/

/-- B + H, loop row 0 (R78). -/
def RunControl.loopStart (r : RunControl) : Nat := r.base.toNat + r.headLen.toNat

/-- B + H + L, the first tail row (R78). -/
def RunControl.tailStart (r : RunControl) : Nat := r.loopStart + r.loopLen.toNat

/-- B + H + L + T, the row after the last tail row (R78). -/
def RunControl.layoutEnd (r : RunControl) : Nat := r.tailStart + r.tailLen.toNat

/-- A layout is valid when L is at least 1, the sum is at most 4096 and E is less than L (R77). -/
def RunControl.layoutValid (r : RunControl) : Bool :=
  decide (1 ≤ r.loopLen.toNat) && decide (r.layoutEnd ≤ 4096) && decide (r.entryOffset.toNat < r.loopLen.toNat)

/-- Whether a run plays: HEAD, LOOP or TAIL (R80). -/
def SeqState.running : SeqState → Bool
  | .head | .loop | .tail => true
  | .idle | .armed | .halted => false

/-- The RUNNING pin (R80). -/
def State.runningPin (s : State) : Bool := !s.pins.resetLow && s.run.seq.running

/-- The PASSMARK pin (R90). -/
def State.passmarkPin (s : State) : Bool := !s.pins.resetLow && decide (0 < s.run.passmarkCycles)

/-- The MARK pin (R108). -/
def State.markPin (s : State) : Bool := !s.pins.resetLow && decide (0 < s.play.markCycles)

/-! ### The run start -/

/-- The state after run start, and the count of ended rows of the pass at 0 (R81, R86). -/
def State.enter (s : State) (q : SeqState) : State := { s with run := { s.run with seq := q, passRows := 0 } }

/-- The log is emptied and the overflow count zeroed (R151, R152). -/
def State.clearLog (s : State) : State := { s with compare := { s.compare with log := [], overflow := 0 } }

/-- Steps 1 to 4 of a run start: log, pass count, target, marks, timebase, commit (R81). The first latch is made when PM has
finished the commit applications before it, and no cycle counts until then (R65; log entry 9). -/
def State.prepareRun (s : State) : State :=
  let s₁ := s.clearLog
  let s₂ := { s₁ with run := { s₁.run with
    passCount := 0, targetInForce := s₁.run.passTarget, stopMark := false, pendingOffset := none } }
  let s₃ := s₂.startTimebase.commitPoint
  { s₃ with timebase := { s₃.timebase with startHeld := !s₃.pm.commits.isEmpty } }

/-- A run start (R81). The first row's KEEP cells resolve against the park settings (R106). -/
def State.runStart (s : State) : State :=
  let s₁ := s.prepareRun
  if 0 < s₁.run.headLen.toNat then
    (s₁.enter .head).latchRow (RowNum.ofSum s₁.run.base.toNat) s₁.lanes.parkStates
  else
    (s₁.enter .loop).latchRow (RowNum.ofSum (s₁.run.loopStart + s₁.run.entryOffset.toNat)) s₁.lanes.parkStates

/-! ### Leaving a run -/

/-- What the normal end of a run and ABORT share: IDLE, lanes parked, timebase stopped, stop mark and pending offset gone, row
discarded (R91, R95, R121, R122). -/
def State.toIdle (s : State) : State :=
  { s with run := { s.run with seq := .idle, stopMark := false, pendingOffset := none } }.parkLanes.stopTimebase.discardRow

/-- The run ends normally, and DONE is raised (R91). -/
def State.endRun (s : State) : State := s.toIdle.raise .done

/-- A halt request: HALTED at once, timebase stopped, lanes held, stop mark and pending offset gone, HALT raised. The row stays
latched (R96). -/
def State.haltRun (s : State) : State :=
  ({ s with run := { s.run with seq := .halted, stopMark := false, pendingOffset := none } }.stopTimebase.holdLanes).raise .halt

/-- A stop request from the fail policy, taken as STOP is: stop pending in HEAD and LOOP, no effect in TAIL (R93). -/
def State.stopRequest (s : State) : State :=
  match s.run.seq with
  | .head | .loop => { s with run := { s.run with stopMark := true } }
  | .idle | .armed | .tail | .halted => s

/-! ### Row ends -/

/-- The first tail row is latched in TAIL, or with an empty tail the run ends (R87, R88). -/
def State.enterTail (s : State) : State :=
  if 0 < s.run.tailLen.toNat then ({ s with run := { s.run with seq := .tail } }).latchNext s.run.tailStart
  else s.endRun

/-- Loop row E is latched as the first row of a pass (R87, R88). -/
def State.beginPass (s : State) : State :=
  (s.enter .loop).latchNext (s.run.loopStart + s.run.entryOffset.toNat)

/-- The end of the last head row: loop entry with its commit, or with stop pending the loop is skipped (R87). -/
def State.headEnd (s : State) : State := if s.run.stopMark then s.enterTail else s.commitPoint.beginPass

/-- The pass count advances by 1 and stays at 65535 (R89). -/
def RunControl.countPass (r : RunControl) : RunControl :=
  { r with passCount := if r.passCount = 0xFFFF then r.passCount else r.passCount + 1 }

/-- A pending offset becomes E (R88, step 3). -/
def RunControl.applyOffset (r : RunControl) : RunControl :=
  match r.pendingOffset with
  | some e => { r with entryOffset := e, pendingOffset := none }
  | none => r

/-- Whether the boundary test ends the loop: stop pending, or a nonzero target met (R88, step 5). -/
def RunControl.loopEnds (r : RunControl) : Bool :=
  r.stopMark || (r.targetInForce != 0 && r.passCount == r.targetInForce)

/-- Steps 1 to 4 of a pass boundary: count, PASSMARK and PASS, offset, commit (R88). -/
def State.boundary (s : State) : State :=
  let s₁ := ({ s with run := { s.run.countPass with passmarkCycles := 2 } }).raise .pass
  ({ s₁ with run := s₁.run.applyOffset }).commitPoint

/-- A pass boundary (R88). -/
def State.passBoundary (s : State) : State :=
  let s₁ := s.boundary
  if s₁.run.loopEnds then s₁.enterTail else s₁.beginPass

/-- The loop row after loop row i in the pass order (R78). -/
def RunControl.nextLoopRow (r : RunControl) : Nat :=
  let i := r.curRow.val - r.loopStart
  r.loopStart + (if i + 1 < r.loopLen.toNat then i + 1 else 0)

/-- Run control's answer to a row end: the next row of the region, the end of the head, a pass boundary or the end of the run
(R86, R111). -/
def State.answerRowEnd (s : State) : State :=
  match s.run.seq with
  | .head => if s.run.curRow.val + 1 < s.run.loopStart then s.latchNext (s.run.curRow.val + 1) else s.headEnd
  | .loop =>
    if s.run.passRows + 1 < s.run.loopLen.toNat then
      ({ s with run := { s.run with passRows := s.run.passRows + 1 } }).latchNext s.run.nextLoopRow
    else s.passBoundary
  | .tail => if s.run.curRow.val + 1 < s.run.layoutEnd then s.latchNext (s.run.curRow.val + 1) else s.endRun
  | .idle | .armed | .halted => s

end Sys2Proof.Machine
end

