-- ==== Sys2Proof/Machine/CompareLog.lean ====
section
/-! DEFINITION. The compare unit and the fail log (chapter 8): compares, fail records, the log, the fail policy; the commands LOG_POP,
LOG_CLEAR, COMPARE_MASK_WRITE and FAIL_POLICY_WRITE. -/

namespace Sys2Proof.Machine

/-- The level an expecting state expects; none for a state that is not compared (R105, R138). -/
def LaneState.expected : LaneState → Option Bool
  | .expectingLow => some false
  | .expectingHigh => some true
  | .drivenLow | .drivenHigh | .released => none

/-- The mismatching lanes: expecting, enabled by the mask, and sampled at the other level (R138). -/
def mismatches (states : Lanes LaneState) (mask : Word) (levels : Lanes Bool) : Lanes Bool :=
  Lanes.ofFn fun n =>
    match (states.get n).expected with
    | some b => mask.getLsbD n.val && (levels.get n != b)
    | none => false

/-- The region of a sequencer state in which fails are detected (R142). -/
def SeqState.region : SeqState → Option Region
  | .head => some .head
  | .loop => some .loop
  | .tail => some .tail
  | .idle | .armed | .halted => none

/-- The pass in progress: the pass count plus 1, and 65535 when the pass count is 65535 (R142). -/
def RunControl.passInProgress (r : RunControl) : Word :=
  if r.passCount = 0xFFFF then r.passCount else r.passCount + 1

/-- The fail record of a fail detected in a region (R142). -/
def State.failRecord (s : State) (kind : FailKind) (region : Region) (row : RowNum) (failing : Lanes Bool) : FailRecord where
  kind := kind
  region := region
  row := row
  pass := if region = .loop then some s.run.passInProgress else none
  failing := failing
  levels := s.lanes.sample
  stamp := s.timebase.stamp

/-- The overflow count advances by 1 and stays at 65535 (R144). -/
def CompareUnit.countDropped (c : CompareUnit) : CompareUnit :=
  { c with overflow := if c.overflow = 0xFFFF then c.overflow else c.overflow + 1 }

/-- A record joins the log at its newest end, with LOGFULL when it is the 32nd (R143); a log of 32 records drops it, counts it
and raises LOGOVF (R144). -/
def State.logFail (s : State) (r : FailRecord) : State :=
  if s.compare.log.length < 32 then
    ({ s with compare := { s.compare with log := s.compare.log ++ [r] } }).raiseIf
      (s.compare.log.length + 1 == 32) .logFull
  else ({ s with compare := s.compare.countDropped }).raise .logOvf

/-- The fail policy in force applied to a detected fail (R147). -/
def State.applyPolicy (s : State) : State :=
  match s.compare.policy with
  | .continue => s
  | .stop => s.stopRequest
  | .halt => s.haltRun

/-- A detected fail: FAIL, the record appended or dropped, the policy applied (R145). A fail is detected in HEAD, LOOP and TAIL
only (R142). -/
def State.detectFail (s : State) (kind : FailKind) (row : RowNum) (failing : Lanes Bool) : State :=
  match s.run.seq.region with
  | some region => ((s.raise .fail).logFail (s.failRecord kind region row failing)).applyPolicy
  | none => s

/-- LOG POP at the compare unit (R150). -/
def State.popLog (s : State) : State × CmdOutcome :=
  match s.compare.log with
  | [] => (s, .empty)
  | _ :: rest => ({ s with compare := { s.compare with log := rest } }, .accepted)

/-- A COMPARE_MASK write stores all sixteen bits (R137). -/
def State.writeMask (s : State) (value : Word) : State := { s with compare := { s.compare with mask := value } }

/-- A FAIL_POLICY write: the value 3 is ignored with ACCERR, any other is stored (R146). -/
def State.writePolicy (s : State) (value : Word) : State :=
  match FailPolicy.ofWord value with
  | some p => { s with compare := { s.compare with policy := p } }
  | none => s.raise .accErr

/-- LOG_POP (R150). -/
def execLogPop (s : State) : Host.Outcome State Fault Refusal := .next (s.command State.popLog)

/-- LOG_CLEAR (R151). -/
def execLogClear (s : State) : Host.Outcome State Fault Refusal :=
  .next (s.command fun s => (s.clearLog, .accepted))

/-- COMPARE_MASK_WRITE (R137). -/
def execCompareMaskWrite (value : Word) (s : State) : Host.Outcome State Fault Refusal :=
  .next (s.regWrite fun s => s.writeMask value)

/-- FAIL_POLICY_WRITE (R146). -/
def execFailPolicyWrite (value : Word) (s : State) : Host.Outcome State Fault Refusal :=
  .next (s.regWrite fun s => s.writePolicy value)

end Sys2Proof.Machine
end

