-- ==== Sys2Proof/Machine/RowPlayback.lean ====
section
/-! DEFINITION. Row playback (chapter 6): what a tick does, the strobe, the wait check, the timeout and the row end; the blocks in one CLKIN
cycle; the commands TICK, WAIT_TIMEOUT, ROW_END, MARK_PULSE_END, STROBE_WRITE and WAIT_LIMIT_WRITE. -/

namespace Sys2Proof.Machine

/-! ### A tick at the latched row -/

/-- The strobe tick of a dwell row: the smaller of the strobe position and the dwell (R110). -/
def strobeTick (strobe : Word) (row : LatchedRow) : Nat := min strobe.toNat (dwellOf row.dwellLess1)

/-- The mismatching lanes of a row against the tick's sample and the mask (R138). -/
def State.rowMismatches (s : State) (row : LatchedRow) : Lanes Bool :=
  mismatches row.states s.compare.mask s.lanes.sample

/-- A strobe request: a COMPARE fail is detected if a compared lane mismatches (R139). -/
def State.strobeCompare (s : State) (row : LatchedRow) : State :=
  if (s.rowMismatches row).any then s.detectFail .compare row.row (s.rowMismatches row) else s

/-- Steps 1 and 2 of a tick in the DWELL phase: the count advances, and a dwell row at its strobe tick is compared (R109). -/
def State.dwellTick (s : State) (row : LatchedRow) : State :=
  let s₁ := { s with play := { s.play with tickInRow := s.play.tickInRow + 1 } }
  if !row.wait && s₁.play.tickInRow == strobeTick s₁.play.strobe row then s₁.strobeCompare row else s₁

/-- The wait count advances with an unmatched tick and stops at 65535 (R113). -/
def Playback.countWait (p : Playback) : Playback :=
  { p with waitCount := if p.waitCount = 0xFFFF then p.waitCount else p.waitCount + 1 }

/-- The wait is over: the dwell counts from the next tick (R112, R114). -/
def State.beginDwell (s : State) : State := { s with play := { s.play with phase := .dwell, tickInRow := 0 } }

/-- A wait check: a match ends the wait, no match advances the wait count (R112, R113). The answer stays for a timeout in the same
event (R141). -/
def State.waitCheck (s : State) (row : LatchedRow) : State :=
  let s₁ := { s with play := { s.play with checkMismatch := s.rowMismatches row } }
  if (s.rowMismatches row).any then { s₁ with play := s₁.play.countWait } else s₁.beginDwell

/-- A tick taken by row playback, up to the timeout and the row end it may bring (R109, R112). -/
def State.playTick (s : State) : State :=
  match s.play.latched with
  | none => s
  | some row =>
    match s.play.phase with
    | .dwell => s.dwellTick row
    | .waiting => s.waitCheck row

/-! ### Timeout and row end -/

/-- Whether the tick being taken has timed the wait out: the check did not match, the limit is not 0, and the wait count equals
it (R113). -/
def State.timeoutDue (s : State) : Bool :=
  !s.pins.resetLow && s.run.seq.running && s.play.latched.isSome && (s.play.phase == .waiting) &&
    (s.play.waitLimit != 0) && (s.play.waitCount == s.play.waitLimit) && s.play.checkMismatch.any

/-- After the fail of a timeout the row counts its dwell, unless HALTED has been entered (R114). -/
def State.afterTimeout (s : State) : State := if s.run.seq = .halted then s else s.beginDwell

/-- A wait that has timed out is a WAIT_TIMEOUT fail of the latched row (R114, R141). Where no timeout is due the event does not
arise (log entry 2). -/
def State.timeOut (s : State) : State :=
  match s.play.latched with
  | some row =>
    if s.timeoutDue then (s.detectFail .waitTimeout row.row s.play.checkMismatch).afterTimeout else s
  | none => s

/-- Whether the latched row has ended: it is in the DWELL phase of a run and its count equals its dwell (R109, step 4). -/
def State.rowEndDue (s : State) : Bool :=
  match s.play.latched with
  | some row =>
    !s.pins.resetLow && s.run.seq.running && (s.play.phase == .dwell) &&
      (s.play.tickInRow == dwellOf row.dwellLess1)
  | none => false

/-- The row end, answered by run control (R111). Where the row has not ended the event does not arise (log entry 2). -/
def State.endRow (s : State) : State := if s.rowEndDue then s.answerRowEnd else s

/-! ### The tick's event -/

/-- The front of a tick's event: the sample, the stamp, and the tick at the latched row (R64, R132). -/
def State.tickFront (s : State) : State :=
  let s₁ := s.takeSample
  ({ s₁ with timebase := s₁.timebase.advanceStamp }).playTick

/-- A tick taken whole: its front, then the timeout it may bring, then the row end it may bring (R64, R109, R111, R113). -/
def State.takeTick (s : State) : State := s.tickFront.timeOut.endRow

/-- A period completes. If the part takes no cycles there is no tick (R66, R67, R68). While a commit application holds the previous
tick, the tick is held back at the counts D - 1 and P - 1 (R64). Otherwise the tick is produced and taken. -/
def State.completePeriod (s : State) : State :=
  if s.takesCycles then
    if s.pm.commits.isEmpty then ({ s with timebase := s.timebase.complete }).takeTick
    else { s with timebase := s.timebase.holdBack }
  else s

/-! ### One CLKIN cycle -/

/-- One CLKIN cycle at the timebase: a held cycle is not counted (R68), a cycle that completes the period produces the tick or is
held back (R64), any other advances the counts (R63). -/
def State.clockTimebase (s : State) : State :=
  if s.takesCycles then
    if s.timebase.lastCycle then
      if s.pm.commits.isEmpty then ({ s with timebase := s.timebase.complete }).takeTick else s
    else { s with timebase := s.timebase.count }
  else s

/-- One CLKIN cycle of a MARK or PASSMARK pulse (R90, R108). -/
def State.clockPulses (s : State) : State :=
  { s with
    run := { s.run with passmarkCycles := s.run.passmarkCycles - 1 }
    play := { s.play with markCycles := s.play.markCycles - 1 } }

/-- One CLKIN cycle of the commit application in progress, if any was when the cycle began (R64). -/
def State.clockCommit (s : State) (before : List Nat) : State :=
  match before with
  | [] => s
  | n :: rest =>
    if n ≤ 1 then s.endCommitApplication
    else { s with pm := { s.pm with commits := (n - 1) :: rest } }

/-- One CLKIN cycle inside the part, RESET_N high: the pulses, the sweep (one row a cycle, R178), the timebase, the commit
application in progress. The order within the cycle is a DESIGN CHOICE (log entry 1). -/
def State.clockBlocks (s : State) : State := (s.clockPulses.sweepRow.clockTimebase).clockCommit s.pm.commits

/-! ### The registers -/

/-- A STROBE write of 1 to 256 is taken in IDLE; any other is ignored with ACCERR (R119). -/
def State.writeStrobe (s : State) (value : Word) : State :=
  if s.run.seq = .idle ∧ 1 ≤ value.toNat ∧ value.toNat ≤ 256 then { s with play := { s.play with strobe := value } }
  else s.raise .accErr

/-- A WAIT_LIMIT write is taken in IDLE and ignored with ACCERR in any other state (R120). -/
def State.writeWaitLimit (s : State) (value : Word) : State :=
  if s.run.seq = .idle then { s with play := { s.play with waitLimit := value } } else s.raise .accErr

/-! ### The commands -/

/-- TICK (R64). -/
def execTick (s : State) : Host.Outcome State Fault Refusal := .next s.completePeriod

/-- WAIT_TIMEOUT (R114). -/
def execWaitTimeout (s : State) : Host.Outcome State Fault Refusal := .next s.timeOut

/-- ROW_END (R111). -/
def execRowEnd (s : State) : Host.Outcome State Fault Refusal := .next s.endRow

/-- MARK_PULSE_END: the MARK pin returns low (R108). -/
def execMarkPulseEnd (s : State) : Host.Outcome State Fault Refusal :=
  .next { s with play := { s.play with markCycles := 0 } }

/-- STROBE_WRITE (R119). -/
def execStrobeWrite (value : Word) (s : State) : Host.Outcome State Fault Refusal :=
  .next (s.regWrite fun s => s.writeStrobe value)

/-- WAIT_LIMIT_WRITE (R120). -/
def execWaitLimitWrite (value : Word) (s : State) : Host.Outcome State Fault Refusal :=
  .next (s.regWrite fun s => s.writeWaitLimit value)

end Sys2Proof.Machine
end

