-- ==== Sys2Proof/Machine/RunControl.lean ====
section
/-! DEFINITION. Run control's commands and registers (chapter 5): START, ARM, STOP, ABORT, TRIG_EDGE, PASSMARK_PULSE_END,
LAYOUT_WRITE, ENTRY_OFFSET_WRITE, PASS_TARGET_WRITE and RUN_CONFIG_WRITE. -/

namespace Sys2Proof.Machine

/-! ### Commands by state -/

/-- START: in IDLE the layout is checked, in ARMED it is not, and in the other states it is refused (R82). -/
def State.startCommand (s : State) : State × CmdOutcome :=
  match s.run.seq with
  | .idle => if s.run.layoutValid then (s.runStart, .accepted) else (s, .refusedLayout)
  | .armed => (s.runStart, .accepted)
  | .head | .loop | .tail | .halted => (s, .refusedState)

/-- ARM: in IDLE a valid layout enters ARMED with a park request; otherwise it is refused (R83). -/
def State.armCommand (s : State) : State × CmdOutcome :=
  match s.run.seq with
  | .idle =>
    if s.run.layoutValid then (({ s with run := { s.run with seq := .armed } }).parkLanes, .accepted)
    else (s, .refusedLayout)
  | .armed | .head | .loop | .tail | .halted => (s, .refusedState)

/-- STOP (R92). -/
def State.stopCommand (s : State) : State × CmdOutcome :=
  match s.run.seq with
  | .armed => (({ s with run := { s.run with seq := .idle } }).parkLanes.stopTimebase, .accepted)
  | .head | .loop => ({ s with run := { s.run with stopMark := true } }, .accepted)
  | .tail => (s, .accepted)
  | .idle | .halted => (s, .refusedState)

/-- ABORT: any state but IDLE goes to IDLE at once, without DONE; in IDLE it has no effect (R95). -/
def State.abortCommand (s : State) : State × CmdOutcome :=
  match s.run.seq with
  | .idle => (s, .accepted)
  | .armed | .head | .loop | .tail | .halted => (s.toIdle, .accepted)

/-! ### TRIG -/

/-- The active level of TRIG: high with polarity rising, low with polarity falling (R84). -/
def RunControl.activeTrig (r : RunControl) : Bool := !r.fallingTrig

/-- Whether a sample at `level` is an edge: at the active level after a sample at the other level, and RESET_N is not low
(R84). -/
def State.isTrigEdge (s : State) (level : Bool) : Bool :=
  !s.pins.resetLow && (s.pins.trig != level) && (level == s.run.activeTrig)

/-- An edge makes a run start in ARMED, raises TRIGIGN in HEAD, LOOP, TAIL and HALTED, and is ignored in IDLE (R84). -/
def State.takeTrigEdge (s : State) : State :=
  match s.run.seq with
  | .armed => s.runStart
  | .head | .loop | .tail | .halted => s.raise .trigIgn
  | .idle => s

/-- The TRIG pin goes to `level` and is sampled there (R84). -/
def State.sampleTrig (s : State) (level : Bool) : State :=
  let s₁ := { s with pins := { s.pins with trig := level } }
  if s.isTrigEdge level then s₁.takeTrigEdge else s₁

/-! ### Registers -/

/-- A layout register replaced; all sixteen bits are kept (R75). -/
def RunControl.write (r : RunControl) (reg : LayoutReg) (value : Word) : RunControl :=
  match reg with
  | .base => { r with base := value }
  | .headLen => { r with headLen := value }
  | .loopLen => { r with loopLen := value }
  | .tailLen => { r with tailLen := value }

/-- A layout write is taken in IDLE and ignored with ACCERR in any other state (R76). -/
def State.writeLayout (s : State) (reg : LayoutReg) (value : Word) : State :=
  if s.run.seq = .idle then { s with run := s.run.write reg value } else s.raise .accErr

/-- An ENTRY_OFFSET write: E in IDLE, the pending offset in a run if less than L, otherwise ignored with ACCERR (R98). -/
def State.writeEntryOffset (s : State) (value : Word) : State :=
  match s.run.seq with
  | .idle => { s with run := { s.run with entryOffset := value } }
  | .head | .loop | .tail =>
    if value.toNat < s.run.loopLen.toNat then { s with run := { s.run with pendingOffset := some value } }
    else s.raise .accErr
  | .armed | .halted => s.raise .accErr

/-- A PASS_TARGET write: the register alone outside a run; in a run the register and the target in force if 0 or greater than the
pass count, otherwise ignored with ACCERR (R99). -/
def State.writePassTarget (s : State) (value : Word) : State :=
  match s.run.seq with
  | .idle | .armed | .halted => { s with run := { s.run with passTarget := value } }
  | .head | .loop | .tail =>
    if value = 0 ∨ s.run.passCount.toNat < value.toNat then
      { s with run := { s.run with passTarget := value, targetInForce := value } }
    else s.raise .accErr

/-- A RUN_CONFIG write stores bit 0, the TRIG polarity, in every state (R84). -/
def State.writeRunConfig (s : State) (value : Word) : State :=
  { s with run := { s.run with fallingTrig := value.getLsbD 0 } }

/-! ### The commands -/

/-- START (R82). -/
def execStart (s : State) : Host.Outcome State Fault Refusal := .next (s.command State.startCommand)

/-- ARM (R83). -/
def execArm (s : State) : Host.Outcome State Fault Refusal := .next (s.command State.armCommand)

/-- STOP (R92). -/
def execStop (s : State) : Host.Outcome State Fault Refusal := .next (s.command State.stopCommand)

/-- ABORT (R95). -/
def execAbort (s : State) : Host.Outcome State Fault Refusal := .next (s.command State.abortCommand)

/-- TRIG_EDGE (R84). -/
def execTrigEdge (level : Bool) (s : State) : Host.Outcome State Fault Refusal := .next (s.sampleTrig level)

/-- PASSMARK_PULSE_END: the PASSMARK pin returns low (R90). -/
def execPassmarkPulseEnd (s : State) : Host.Outcome State Fault Refusal :=
  .next { s with run := { s.run with passmarkCycles := 0 } }

/-- LAYOUT_WRITE (R76). -/
def execLayoutWrite (reg : LayoutReg) (value : Word) (s : State) : Host.Outcome State Fault Refusal :=
  .next (s.regWrite fun s => s.writeLayout reg value)

/-- ENTRY_OFFSET_WRITE (R98). -/
def execEntryOffsetWrite (value : Word) (s : State) : Host.Outcome State Fault Refusal :=
  .next (s.regWrite fun s => s.writeEntryOffset value)

/-- PASS_TARGET_WRITE (R99). -/
def execPassTargetWrite (value : Word) (s : State) : Host.Outcome State Fault Refusal :=
  .next (s.regWrite fun s => s.writePassTarget value)

/-- RUN_CONFIG_WRITE (R84). -/
def execRunConfigWrite (value : Word) (s : State) : Host.Outcome State Fault Refusal :=
  .next (s.regWrite fun s => s.writeRunConfig value)

end Sys2Proof.Machine
end

