-- ==== Sys2Proof/Machine/HostBus.lean ====
section
/-! DEFINITION. The host bus interface (chapter 10): the register map for reads and writes, the command decoder; the commands
UNKNOWN_COMMAND and REGISTER_WRITE. -/

namespace Sys2Proof.Machine

/-! ### Commands -/

/-- What the owner of a command does with a code; a code not in the table gives UNKNOWN and changes nothing else (R168). -/
def State.ownerOf (code : Word) (s : State) : State × CmdOutcome :=
  match commandOfCode code with
  | some .start => s.startCommand
  | some .arm => s.armCommand
  | some .stop => s.stopCommand
  | some .abort => s.abortCommand
  | some .setWindow => s.setWindow
  | some .seek => s.seek
  | some .fill => s.fillCommand
  | some .fillAbort => s.fillAbort
  | some .closeBatch => s.closeBatch
  | some .discardBatch => s.discardBatch
  | some .flushQueue => s.flushQueue
  | some .commit => s.commitCommand
  | some .logPop => s.popLog
  | some .logClear => (s.clearLog, .accepted)
  | some .softReset => (s.softReset, .accepted)
  | _ => (s, .unknown)

/-- A write to COMMAND (R168). -/
def State.writeCommand (s : State) (code : Word) : State := s.command (State.ownerOf code)

/-! ### The register map, written -/

/-- A write cycle at a word address (R166, R167): passed to the owning block, or for a read-only register and an unmapped address
ignored without event. -/
def State.writeReg (s : State) (addr : Addr) (value : Word) : State :=
  match addr.toNat with
  | 0x03 => s.writeCommand value
  | 0x05 => s.writeEvents value
  | 0x06 => s.regWrite fun s => s.writeEnables value
  | 0x08 => s.regWrite fun s => s.writeWindow .rowStart value
  | 0x09 => s.regWrite fun s => s.writeWindow .rowEnd value
  | 0x0A => s.regWrite fun s => s.writeWindow .lanes value
  | 0x0B => s.regWrite fun s => s.writeWindow .mode value
  | 0x0E => s.busCycle fun s => s.writeData value
  | 0x0F => s.regWrite fun s => s.writeWindow .fillValue value
  | 0x14 => s.regWrite fun s => s.writeLayout .base value
  | 0x15 => s.regWrite fun s => s.writeLayout .headLen value
  | 0x16 => s.regWrite fun s => s.writeLayout .loopLen value
  | 0x17 => s.regWrite fun s => s.writeLayout .tailLen value
  | 0x18 => s.regWrite fun s => s.writeEntryOffset value
  | 0x19 => s.regWrite fun s => s.writePassTarget value
  | 0x1C => s.regWrite fun s => s.writeRunConfig value
  | 0x20 => s.regWrite fun s => s.writeTimebase .prescale value
  | 0x21 => s.regWrite fun s => s.writeTimebase .period value
  | 0x22 => s.regWrite fun s => s.writeTimebase .gateConfig value
  | 0x23 => s.regWrite fun s => s.writeStrobe value
  | 0x24 => s.regWrite fun s => s.writeWaitLimit value
  | 0x28 => s.regWrite fun s => s.writePark .a value
  | 0x29 => s.regWrite fun s => s.writePark .b value
  | 0x2A => s.regWrite fun s => s.writeTerm .a value
  | 0x2B => s.regWrite fun s => s.writeTerm .b value
  | 0x2C => s.regWrite fun s => s.writeMask value
  | 0x39 => s.regWrite fun s => s.writePolicy value
  | _ => s

/-! ### The register map, read -/

/-- What a read of the log's oldest record shows, and 0 with the log empty (R149). -/
def CompareUnit.oldest (c : CompareUnit) (f : FailRecord → Word) : Word :=
  match c.log with
  | [] => 0
  | r :: _ => f r

/-- The word that stands at a word address (R166, R167); at 0x0E the word that a DATA read would return. Unmapped addresses and
COMMAND read 0x0000. -/
def State.regWord (s : State) (addr : Addr) : Word :=
  match addr.toNat with
  | 0x00 => 0xEF41
  | 0x01 => 0x0001
  | 0x02 => s.statusWord
  | 0x04 => s.bus.outcomeWord
  | 0x05 => s.events.flags
  | 0x06 => s.events.enables
  | 0x08 => s.window.held.rowStart
  | 0x09 => s.window.held.rowEnd
  | 0x0A => lanesWord s.window.held.laneStart s.window.held.laneEnd
  | 0x0B => s.window.held.mode.toWord
  | 0x0C => BitVec.ofNat 16 s.window.cursor.row.val
  | 0x0D => BitVec.ofNat 16 s.window.cursor.lane.val
  | 0x0E => if s.readRefused then 0 else s.dataWord
  | 0x0F => s.window.fillValue
  | 0x10 => s.queue.statusWord
  | 0x11 => s.queue.openWord
  | 0x14 => s.run.base
  | 0x15 => s.run.headLen
  | 0x16 => s.run.loopLen
  | 0x17 => s.run.tailLen
  | 0x18 => s.run.entryOffset
  | 0x19 => s.run.passTarget
  | 0x1A => s.run.passCount
  | 0x1B => BitVec.ofNat 16 s.run.curRow.val
  | 0x1C => (BitVec.ofBool s.run.fallingTrig).zeroExtend 16
  | 0x20 => s.timebase.prescale.zeroExtend 16
  | 0x21 => s.timebase.period
  | 0x22 => (BitVec.ofBool s.timebase.holdHigh ++ BitVec.ofBool s.timebase.gateEnabled).zeroExtend 16
  | 0x23 => s.play.strobe
  | 0x24 => s.play.waitLimit
  | 0x28 => fieldsWord .a fun n => (s.lanes.park.get n).toField
  | 0x29 => fieldsWord .b fun n => (s.lanes.park.get n).toField
  | 0x2A => fieldsWord .a fun n => (s.lanes.term.get n).toField
  | 0x2B => fieldsWord .b fun n => (s.lanes.term.get n).toField
  | 0x2C => s.compare.mask
  | 0x2D => s.laneIn.toWord
  | 0x2E => s.laneDrive.toWord
  | 0x30 => BitVec.ofNat 16 s.compare.log.length
  | 0x31 => s.compare.overflow
  | 0x32 => s.compare.oldest FailRecord.infoWord
  | 0x33 => s.compare.oldest fun r => BitVec.ofNat 16 r.row.val
  | 0x34 => s.compare.oldest fun r => r.pass.getD 0
  | 0x35 => s.compare.oldest fun r => r.failing.toWord
  | 0x36 => s.compare.oldest fun r => r.levels.toWord
  | 0x37 => s.compare.oldest fun r => r.stamp.extractLsb' 16 16
  | 0x38 => s.compare.oldest fun r => r.stamp.extractLsb' 0 16
  | 0x39 => s.compare.policy.toWord
  | _ => 0

/-- What a read cycle at a word address returns: the word that stands there, or nothing while RESET_N is low, when the part takes no
cycle and drives no data line (R165, R176). The one read with a side effect, that of DATA (R166), is the command DATA_READ. -/
def State.readReg (s : State) (addr : Addr) : Option Word := if s.pins.resetLow then none else some (s.regWord addr)

/-! ### The commands -/

/-- UNKNOWN_COMMAND (R168): the code is decoded whole, so a code of the table is the command of that code (log entry 18). -/
def execUnknownCommand (code : Word) (s : State) : Host.Outcome State Fault Refusal := .next (s.writeCommand code)

/-- REGISTER_WRITE (R166): a write cycle at any address of the window (log entry 18). -/
def execRegisterWrite (addr : Addr) (value : Word) (s : State) : Host.Outcome State Fault Refusal :=
  .next (s.writeReg addr value)

end Sys2Proof.Machine
end

