-- ==== Sys2Proof/Machine/BusLines.lean ====
section
/-! DEFINITION. The bus lines (10.1): which edge of CS_N, RD_N and WR_N is a write or a read, when the part drives D15 to D0, and
one CLKIN cycle of the part, which ends with a sample of the lines. -/

namespace Sys2Proof.Machine

/-! ### Edges -/

/-- The three strobes (R165). -/
inductive Strobe where
  | cs
  | rd
  | wr
deriving DecidableEq, Repr

/-- One strobe moved to its level in `now`, the others as they are. -/
def Strobes.follow (now : Strobes) : Strobe → Strobes → Strobes
  | .cs, seen => { seen with csLow := now.csLow }
  | .rd, seen => { seen with rdLow := now.rdLow }
  | .wr, seen => { seen with wrLow := now.wrLow }

/-- What the part takes at an edge. -/
inductive BusEvent where
  | write
  | read
  | nothing
deriving DecidableEq, Repr

/-- The event of an edge of one strobe, by the levels after it (R165): a rise of WR_N with CS_N low is a write; a fall of RD_N or
CS_N that leaves both low with WR_N high begins a read; with both strobes low, and at every other edge, there is no event. -/
def Strobes.event (after : Strobes) : Strobe → BusEvent
  | .wr => if after.csLow && !after.wrLow then .write else .nothing
  | .cs | .rd => if after.csLow && after.rdLow && !after.wrLow then .read else .nothing

/-! ### The two cycles -/

/-- A read begins: the part fixes the word it returns and drives it on D15 to D0 (R165). A read of DATA is a transfer, with what the
access window answers; no other read has a side effect (R166). -/
def State.beginRead (s : State) (addr : Addr) : State :=
  if addr = 0x0E then
    let t := s.readData
    { t with bus := { t.bus with driven := t.bus.readWord } }
  else { s with bus := { s.bus with driven := some (s.regWord addr) } }

/-- The cycle that an event takes, at the address and with the data on the lines (R165). -/
def State.takeBusEvent (s : State) : BusEvent → State
  | .write => s.writeReg s.pins.lines.addr s.pins.lines.data
  | .read => s.beginRead s.pins.lines.addr
  | .nothing => s

/-- One strobe followed to its present level. The part drives the data lines with both strobes of a read low and WR_N high, so any
edge stops the drive (R165); then the event of the edge is taken. -/
def State.followStrobe (s : State) (k : Strobe) : State :=
  let seen := s.pins.lines.strobes.follow k s.bus.seen
  if seen = s.bus.seen then s
  else ({ s with bus := { s.bus with seen := seen, driven := none } }).takeBusEvent (seen.event k)

/-! ### The sample -/

/-- The six orders of three edges. -/
def strobeOrders : Fin 6 → List Strobe
  | 0 => [.cs, .rd, .wr]
  | 1 => [.cs, .wr, .rd]
  | 2 => [.rd, .cs, .wr]
  | 3 => [.rd, .wr, .cs]
  | 4 => [.wr, .cs, .rd]
  | 5 => [.wr, .rd, .cs]

/-- The bus lines sampled (R178: bus cycles are taken in the CLKIN domain). Each strobe that has moved since the last sample is one
edge; the order of edges seen together is a free value (log entry 29). -/
def State.sampleLines (s : State) : State :=
  if s.bus.seen = s.pins.lines.strobes then s
  else (strobeOrders (Config.strobeOrder s.free)).foldl State.followStrobe { s with free := s.free + 1 }

/-- One CLKIN cycle: the blocks, then the bus lines, so that what a bus cycle starts counts from the next CLKIN cycle (DESIGN CHOICE,
log entry 29). While RESET_N is low nothing counts and no bus cycle is taken (R165). -/
def State.clockCycle (s : State) : State := if s.pins.resetLow then s else s.clockBlocks.sampleLines

end Sys2Proof.Machine
end

