-- ==== Sys2Proof/Machine/Dispatch.lean ====
section
/-! DEFINITION. One arm for each command of the opcode table, in the table's order. -/

namespace Sys2Proof.Machine

/-- The effect of a command on everything but the queue, each by its own meaning. -/
def exec (i : Instr) (s : State) : Host.Outcome State Fault Refusal :=
  match i with
  | .powerOn => Sys2Proof.Machine.execPowerOn s
  | .resetNAssert => Sys2Proof.Machine.execResetNAssert s
  | .resetNRelease => Sys2Proof.Machine.execResetNRelease s
  | .sweepRowWrite => Sys2Proof.Machine.execSweepRowWrite s
  | .fillRowWrite => Sys2Proof.Machine.execFillRowWrite s
  | .commitApplicationEnd => Sys2Proof.Machine.execCommitApplicationEnd s
  | .start => Sys2Proof.Machine.execStart s
  | .arm => Sys2Proof.Machine.execArm s
  | .stop => Sys2Proof.Machine.execStop s
  | .abort => Sys2Proof.Machine.execAbort s
  | .setWindow => Sys2Proof.Machine.execSetWindow s
  | .seek => Sys2Proof.Machine.execSeek s
  | .fill => Sys2Proof.Machine.execFill s
  | .fillAbort => Sys2Proof.Machine.execFillAbort s
  | .closeBatch => Sys2Proof.Machine.execCloseBatch s
  | .discardBatch => Sys2Proof.Machine.execDiscardBatch s
  | .flushQueue => Sys2Proof.Machine.execFlushQueue s
  | .commit => Sys2Proof.Machine.execCommit s
  | .logPop => Sys2Proof.Machine.execLogPop s
  | .logClear => Sys2Proof.Machine.execLogClear s
  | .softReset => Sys2Proof.Machine.execSoftReset s
  | .unknownCommand code => Sys2Proof.Machine.execUnknownCommand code s
  | .dataWrite word => Sys2Proof.Machine.execDataWrite word s
  | .dataRead => Sys2Proof.Machine.execDataRead s
  | .eventsWrite value => Sys2Proof.Machine.execEventsWrite value s
  | .eventEnableWrite value => Sys2Proof.Machine.execEventEnableWrite value s
  | .parkWrite half value => Sys2Proof.Machine.execParkWrite half value s
  | .termWrite half value => Sys2Proof.Machine.execTermWrite half value s
  | .entryOffsetWrite value => Sys2Proof.Machine.execEntryOffsetWrite value s
  | .passTargetWrite value => Sys2Proof.Machine.execPassTargetWrite value s
  | .layoutWrite reg value => Sys2Proof.Machine.execLayoutWrite reg value s
  | .timebaseWrite reg value => Sys2Proof.Machine.execTimebaseWrite reg value s
  | .strobeWrite value => Sys2Proof.Machine.execStrobeWrite value s
  | .waitLimitWrite value => Sys2Proof.Machine.execWaitLimitWrite value s
  | .compareMaskWrite value => Sys2Proof.Machine.execCompareMaskWrite value s
  | .failPolicyWrite value => Sys2Proof.Machine.execFailPolicyWrite value s
  | .windowRegisterWrite reg value => Sys2Proof.Machine.execWindowRegisterWrite reg value s
  | .runConfigWrite value => Sys2Proof.Machine.execRunConfigWrite value s
  | .registerWrite addr value => Sys2Proof.Machine.execRegisterWrite addr value s
  | .trigEdge level => Sys2Proof.Machine.execTrigEdge level s
  | .gateChange level => Sys2Proof.Machine.execGateChange level s
  | .tick => Sys2Proof.Machine.execTick s
  | .waitTimeout => Sys2Proof.Machine.execWaitTimeout s
  | .rowEnd => Sys2Proof.Machine.execRowEnd s
  | .markPulseEnd => Sys2Proof.Machine.execMarkPulseEnd s
  | .passmarkPulseEnd => Sys2Proof.Machine.execPassmarkPulseEnd s
  | .uutLaneDriveChange lane drive => Sys2Proof.Machine.execUutLaneDriveChange lane drive s
  | .pulledLevelReached lane => Sys2Proof.Machine.execPulledLevelReached lane s

end Sys2Proof.Machine
end

