-- ==== Sys2Proof/Safety.lean ====
section
/-! DEFINITION. The terms claims are stated in: a command that completes, what it leaves unchanged, and the invariant of the
machine, part by part. -/

namespace Sys2Proof

open Machine

/-! ### Completion and frames -/

/-- The command completes: it answers a next state, and the state meets `post`. -/
def Completes (i : Instr) (s : State) (post : State → Prop) : Prop := ∃ t, exec i s = .next t ∧ post t

/-- The parts of State, one for each block and for the model's own fields. -/
inductive Part where
  | pm
  | window
  | queue
  | timebase
  | run
  | play
  | lanes
  | compare
  | events
  | bus
  | pins
  | free
  | pending
deriving DecidableEq, Repr

/-- A part is the same in two states. -/
def Part.same (s t : State) : Part → Prop
  | .pm => t.pm = s.pm
  | .window => t.window = s.window
  | .queue => t.queue = s.queue
  | .timebase => t.timebase = s.timebase
  | .run => t.run = s.run
  | .play => t.play = s.play
  | .lanes => t.lanes = s.lanes
  | .compare => t.compare = s.compare
  | .events => t.events = s.events
  | .bus => t.bus = s.bus
  | .pins => t.pins = s.pins
  | .free => t.free = s.free
  | .pending => t.pending = s.pending

/-- Every part but those named is the same in two states: the frame of a command. -/
def SameBut (changed : List Part) (s t : State) : Prop := ∀ p, p ∉ changed → Part.same s t p

/-- The part takes bus cycles and carries commands out: RESET_N is high and no sweep is in progress (R10, R165). -/
def Ready (s : Machine.State) : Prop := s.pins.resetLow = false ∧ s.pm.sweep = none

/-- The host holds the strobes where the part last saw them, so that this CLKIN cycle brings no edge (R165). -/
def BusQuiet (s : Machine.State) : Prop := s.bus.seen = s.pins.lines.strobes

/-- The part with k more CLKIN cycles of its MARK and PASSMARK pulses gone (R90, R108), and nothing else changed. -/
def pulsed (s : Machine.State) (k : Nat) : Machine.State :=
  { s with
    run := { s.run with passmarkCycles := s.run.passmarkCycles - k }
    play := { s.play with markCycles := s.play.markCycles - k } }

/-- The part at the edges of a CLKIN cycle, before it takes what they bring: the blocks have taken the cycle, the strobes are seen,
and no data line is driven (R165; log entry 29). -/
def atEdge (s : Machine.State) : Machine.State :=
  { s.clockBlocks with
    bus := { s.clockBlocks.bus with seen := s.pins.lines.strobes, driven := none }
    free := s.clockBlocks.free + 1 }

/-- Some steps, one after another, up to the first that does not answer a next state. -/
def steps : Nat → Machine.State → Host.Outcome Machine.State Fault Refusal
  | 0, s => .next s
  | k + 1, s =>
    match step s with
    | .next t => steps k t
    | .fault r => .fault r
    | .refused r => .refused r

/-! ### Requests -/

/-- How a command reaches the part: as a write to COMMAND, as another bus cycle, or as no bus cycle at all (R165, R166). -/
inductive Request where
  | command
  | eventsWrite
  | registerWrite
  | dataTransfer
  | writeCycle
  | event
deriving DecidableEq, Repr

/-- The request that each row of the table is. -/
def Instr.request : Instr → Request
  | .start | .arm | .stop | .abort | .setWindow | .seek | .fill | .fillAbort | .closeBatch | .discardBatch | .flushQueue
  | .commit | .logPop | .logClear | .softReset | .unknownCommand _ => .command
  | .eventsWrite _ => .eventsWrite
  | .eventEnableWrite _ | .parkWrite _ _ | .termWrite _ _ | .entryOffsetWrite _ | .passTargetWrite _ | .layoutWrite _ _
  | .timebaseWrite _ _ | .strobeWrite _ | .waitLimitWrite _ | .compareMaskWrite _ | .failPolicyWrite _
  | .windowRegisterWrite _ _ | .runConfigWrite _ => .registerWrite
  | .dataWrite _ | .dataRead => .dataTransfer
  | .registerWrite _ _ => .writeCycle
  | .powerOn | .resetNAssert | .resetNRelease | .sweepRowWrite | .fillRowWrite | .commitApplicationEnd | .trigEdge _
  | .gateChange _ | .tick | .waitTimeout | .rowEnd | .markPulseEnd | .passmarkPulseEnd | .uutLaneDriveChange _ _
  | .pulledLevelReached _ => .event

/-- The row of the table that a write cycle at a word address is, by the register map (R167); none at a read-only register or an
unmapped address, where a write is ignored without event (R166). -/
def registerRow (addr : Addr) (value : Word) : Option Instr :=
  match addr.toNat with
  | 0x03 => some ((commandOfCode value).getD (.unknownCommand value))
  | 0x05 => some (.eventsWrite value)
  | 0x06 => some (.eventEnableWrite value)
  | 0x08 => some (.windowRegisterWrite .rowStart value)
  | 0x09 => some (.windowRegisterWrite .rowEnd value)
  | 0x0A => some (.windowRegisterWrite .lanes value)
  | 0x0B => some (.windowRegisterWrite .mode value)
  | 0x0E => some (.dataWrite value)
  | 0x0F => some (.windowRegisterWrite .fillValue value)
  | 0x14 => some (.layoutWrite .base value)
  | 0x15 => some (.layoutWrite .headLen value)
  | 0x16 => some (.layoutWrite .loopLen value)
  | 0x17 => some (.layoutWrite .tailLen value)
  | 0x18 => some (.entryOffsetWrite value)
  | 0x19 => some (.passTargetWrite value)
  | 0x1C => some (.runConfigWrite value)
  | 0x20 => some (.timebaseWrite .prescale value)
  | 0x21 => some (.timebaseWrite .period value)
  | 0x22 => some (.timebaseWrite .gateConfig value)
  | 0x23 => some (.strobeWrite value)
  | 0x24 => some (.waitLimitWrite value)
  | 0x28 => some (.parkWrite .a value)
  | 0x29 => some (.parkWrite .b value)
  | 0x2A => some (.termWrite .a value)
  | 0x2B => some (.termWrite .b value)
  | 0x2C => some (.compareMaskWrite value)
  | 0x39 => some (.failPolicyWrite value)
  | _ => none

/-- The reset column of the register map (R167), but for STATUS, OUTCOME, EVENTS, DATA and LANE_IN, which have no one value. -/
def resetColumn : List (Addr × Word) :=
  [(0x00, 0xEF41), (0x01, 0x0001), (0x03, 0), (0x06, 0), (0x08, 0), (0x09, 0x0FFF), (0x0A, 0x00F0), (0x0B, 0x0010),
   (0x0C, 0), (0x0D, 0), (0x0F, 0), (0x10, 0), (0x11, 0), (0x14, 0), (0x15, 0), (0x16, 0), (0x17, 0), (0x18, 0), (0x19, 0),
   (0x1A, 0), (0x1B, 0), (0x1C, 0), (0x20, 0), (0x21, 0), (0x22, 0), (0x23, 0x0100), (0x24, 0), (0x28, 0), (0x29, 0),
   (0x2A, 0), (0x2B, 0), (0x2C, 0xFFFF), (0x2E, 0), (0x30, 0), (0x31, 0), (0x32, 0), (0x33, 0), (0x34, 0), (0x35, 0),
   (0x36, 0), (0x37, 0), (0x38, 0), (0x39, 0)]

/-! ### What a step leaves, in the words of the rules -/

/-- The flags raised between two states are those with a cause; no enable changes (R157). -/
def Raises (s t : Machine.State) (cause : Event → Prop) : Prop :=
  t.events.enables = s.events.enables ∧ ∀ e, t.events.isSet e = true ↔ s.events.isSet e = true ∨ cause e

/-- A keeper takes the level of its pin where the part or the unit under test drives it, and keeps its level where neither does
(R127). Only on a lane that a termination was still pulling, and that is taken from it midway, is the level open (log entry 10). Where both
drive the pin against each other the keeper takes the part's level: the model's choice, log entry 11. -/
def KeepersHold (u v : LaneUnit) : Prop :=
  ∀ n, u.pinLevel n ≠ none ∨ v.pull n = u.pull n →
    v.keeper.get n = ((v.driver n).or (uutLevel (v.uut.get n))).getD (u.keeper.get n)

/-- A keeper holds the level of its pin whenever the pin is at a definite level (R127). -/
def KeepersFollow (u : LaneUnit) : Prop := ∀ n b, u.pinLevel n = some b → u.keeper.get n = b

/-- The lane unit took one request: its settings are as they were, its effective states are `states`, and the keepers follow. -/
def LanesTake (u v : LaneUnit) (states : Lanes LaneState) : Prop :=
  v.effective = states ∧ v.park = u.park ∧ v.term = u.term ∧ v.uut = u.uut ∧ v.active = u.active ∧ v.sample = u.sample ∧
    KeepersHold u v ∧ KeepersFollow v

/-- What FILL ABORT and SOFT RESET leave of a fill (R17, R18): a fill that is ending goes on; any other goes on to the row it has
begun and ends with it, or has no row begun and is over. It has none while a commit application is in progress, which PM takes between
two fill row writes (R16); at any other time the manual does not say, and the model leaves it open (log entry 6). -/
def FillEnded (p q : PatternMemory) : Prop :=
  q = { p with fill := q.fill } ∧
  match p.fill with
  | none => q.fill = none
  | some f =>
    (q.fill = some { f with ending := true } ∨ (q.fill = none ∧ f.ending = false)) ∧
    (f.ending = false → p.commits ≠ [] → q.fill = none)

/-- The fill row write of an ending fill: the row takes the fill value and the fill is over, without FILLDONE (R17, R18). -/
def lastRowWritten (s : Machine.State) (f : Fill) : Machine.State :=
  { s with pm := { s.pm with rows := s.pm.rows.writeRow f.row (f.write (s.pm.rows.row f.row)), fill := none } }

/-- The cell writes of some batches, batches oldest first, entries in queue order, triples in the order held (R52). -/
def cellWrites (batches : List Batch) : List Triple :=
  batches.flatMap fun b => b.entries.flatMap fun e =>
    match e with
    | .cells ts => ts
    | .attributes _ _ => []

/-- The attribute writes of some batches, in the same order (R52). -/
def recordWrites (batches : List Batch) : List (RowNum × Attributes) :=
  batches.flatMap fun b => b.entries.flatMap fun e =>
    match e with
    | .cells _ => []
    | .attributes r a => [(r, a)]

/-- The code of the last write to a cell, and of the cell itself where none writes it (R4, R52). -/
def codeAfter (ts : List Triple) (r : RowNum) (n : Lane) (before : CellCode) : CellCode :=
  ((ts.reverse.find? fun t => decide (t.row = r ∧ t.lane = n)).map fun t => t.code).getD before

/-- The record of the last write to a row's attributes, and of the row itself where none writes it (R52). -/
def recordAfter (ws : List (RowNum × Attributes)) (r : RowNum) (before : Attributes) : Attributes :=
  ((ws.reverse.find? fun w => decide (w.1 = r)).map fun w => w.2).getD before

/-- A commit was taken at the queue and at PM: every closed batch is in PM and gone from the queue, the open batch and the next
batch number are as they were, and an application that wrote something has begun its cycles (R51, R52, R64). -/
def Committed (s t : Machine.State) : Prop :=
  (∀ r n, t.pm.rows.cell r n = codeAfter (cellWrites s.queue.closed) r n (s.pm.rows.cell r n)) ∧
  (∀ r, t.pm.rows.attributes r = recordAfter (recordWrites s.queue.closed) r (s.pm.rows.attributes r)) ∧
  t.pm.sweep = s.pm.sweep ∧ t.pm.fill = s.pm.fill ∧
  t.pm.commits = s.pm.commits ++
    (if s.queue.closed = [] then []
     else [(cellWrites s.queue.closed).length + (recordWrites s.queue.closed).length + 1]) ∧
  t.queue = { s.queue with closed := [] }

/-- The effective state of a cell's code, against the state its lane had in the previous row (R105, R106). -/
def stateOf (code : CellCode) (previous : LaneState) : LaneState :=
  match code with
  | .driveLow => .drivenLow
  | .driveHigh => .drivenHigh
  | .keep => previous
  | .release => .released
  | .expectLow => .expectingLow
  | .expectHigh => .expectingHigh

/-- Row `r` of `t`'s pattern memory was latched against the states `previous` (R104): playback, CUR_ROW, the lanes and MARK. -/
def Latched (s t : Machine.State) (r : RowNum) (previous : Lanes LaneState) : Prop :=
  let states := Lanes.ofFn fun n => stateOf (t.pm.rows.cell r n) (previous.get n)
  let record := t.pm.rows.attributes r
  t.run.curRow = r ∧
  t.play = { s.play with
    latched := some ⟨r, states, record.dwellLess1, record.wait⟩
    phase := if record.wait then .waiting else .dwell
    tickInRow := 0
    waitCount := 0
    markCycles := if record.mark then 2 else s.play.markCycles } ∧
  LanesTake s.lanes t.lanes states

/-- The flags of a commit and a latch: COMMIT if a batch was waiting, MARK if the row is marked (R51, R108). -/
def commitOrMark (s t : Machine.State) (r : RowNum) (e : Event) : Prop :=
  (e = .commit ∧ s.queue.closed ≠ []) ∨ (e = .mark ∧ (t.pm.rows.attributes r).mark = true)

/-- What the end of a run and ABORT leave outside run control: the lanes parked, the timebase stopped with its counts kept, no row
latched (R66, R121, R122, R129). -/
def Stopped (s t : Machine.State) : Prop :=
  LanesTake s.lanes t.lanes s.lanes.parkStates ∧
  t.timebase = { s.timebase with counting := false, startHeld := false } ∧
  t.play = { s.play with latched := none, phase := .dwell, tickInRow := 0, waitCount := 0 }

/-- The queue's answer to an offered entry, taken or not, and the queue after it: the table of R46. -/
def offerAnswer (q : UpdateQueue) (e : Entry) : Bool × UpdateQueue :=
  match q.openBatch with
  | none =>
    if q.held < 64 then (true, { q with openBatch := some ⟨q.next, [e], false⟩, next := q.next + 1 })
    else (false, { q with openBatch := some ⟨q.next, [], true⟩, next := q.next + 1 })
  | some b =>
    if b.damaged then (false, q)
    else if q.held < 64 then (true, { q with openBatch := some { b with entries := b.entries ++ [e] } })
    else (false, { q with openBatch := some { b with damaged := true } })

/-- Place i of a transfer: the cursor place and the places that follow it along the walk (R29). -/
def place (s : Machine.State) (i : Nat) : Place := s.window.eff.after s.window.cursor i

/-- Value i of a transfer word, if it is a valid code (R2, R29). -/
def codeAt (word : Word) (i : Nat) : Option CellCode := CellCode.ofBits (word.extractLsb' (3 * i) 3)

/-- The cursor has made k moves and nothing else of the window has changed (R27). -/
def Moved (s t : Machine.State) (k : Nat) : Prop := t.window = { s.window with cursor := place s k }

/-- One of k moves is a wrap (R27). -/
def wraps (s : Machine.State) (k : Nat) : Prop := ∃ i, i < k ∧ s.window.eff.atLast (place s i) = true

/-- One of k positions of a transfer holds an invalid code (R30, R34). -/
def invalidAmong (word : Word) (k : Nat) : Prop := ∃ i, i < k ∧ codeAt word i = none

/-- A valid layout (R77). -/
def ValidLayout (r : RunControl) : Prop :=
  1 ≤ r.loopLen.toNat ∧
  r.base.toNat + r.headLen.toNat + r.loopLen.toNat + r.tailLen.toNat ≤ 4096 ∧
  r.entryOffset.toNat < r.loopLen.toNat

/-- A run start was made (R81): the log emptied, run control's counts and marks set, the timebase started, the commit taken, the
first row latched against the park settings. -/
def RunStarted (s t : Machine.State) : Prop :=
  ∃ r : RowNum,
    r.val = (if 0 < s.run.headLen.toNat then s.run.base.toNat
      else s.run.base.toNat + s.run.entryOffset.toNat) ∧
    t.compare = { s.compare with log := [], overflow := 0 } ∧
    t.run = { s.run with
      seq := if 0 < s.run.headLen.toNat then .head else .loop
      passCount := 0
      targetInForce := s.run.passTarget
      stopMark := false
      pendingOffset := none
      curRow := r
      passRows := 0 } ∧
    t.timebase = { s.timebase with
      prescaleCount := 0
      periodCount := 0
      stamp := 0
      counting := true
      startHeld := !t.pm.commits.isEmpty } ∧
    Committed s t ∧ Latched s t r s.lanes.parkStates ∧ Raises s t (commitOrMark s t r)

/-- The run ended normally (R91), from a state whose boundary steps, if any, left run control as `r`. -/
def RunEnded (s t : Machine.State) (r : RunControl) : Prop :=
  t.run = { r with seq := .idle, stopMark := false, pendingOffset := none } ∧ Stopped s t

/-- The latched row of a run has ended: it is in the DWELL phase and its count equals its dwell (R109, step 4). -/
def RowEnded (s : Machine.State) (row : LatchedRow) : Prop :=
  s.pins.resetLow = false ∧ s.run.seq.running = true ∧ s.play.latched = some row ∧ s.play.phase = .dwell ∧
    s.play.tickInRow = dwellOf row.dwellLess1

/-- A detected fail was handled (R145): FAIL, the record stored or counted, the policy applied. -/
def FailHandled (s t : Machine.State) (record : FailRecord) : Prop :=
  t.compare =
    (if s.compare.log.length < 32 then { s.compare with log := s.compare.log ++ [record] }
     else { s.compare with
       overflow := if s.compare.overflow = 0xFFFF then s.compare.overflow else s.compare.overflow + 1 }) ∧
  Raises s t (fun e => e = .fail ∨ (e = .logFull ∧ s.compare.log.length = 31) ∨
    (e = .logOvf ∧ 32 ≤ s.compare.log.length) ∨ (e = .halt ∧ s.compare.policy = .halt)) ∧
  match s.compare.policy with
  | .continue => SameBut [.compare, .events] s t
  | .stop =>
    t.run = { s.run with stopMark := s.run.stopMark || (s.run.seq == .head || s.run.seq == .loop) } ∧
    SameBut [.compare, .events, .run] s t
  | .halt =>
    t.run = { s.run with seq := .halted, stopMark := false, pendingOffset := none } ∧
    t.timebase = { s.timebase with counting := false, startHeld := false } ∧
    LanesTake s.lanes t.lanes (Lanes.ofFn fun n => (s.lanes.effective.get n).held) ∧
    SameBut [.compare, .events, .run, .timebase, .lanes, .free] s t

/-- The stamp after one more tick: it stays at 4294967295 (R70). -/
def nextStamp (stamp : BitVec 32) : BitVec 32 := if stamp = 0xFFFFFFFF then stamp else stamp + 1

/-- What every tick does before its row: the counts return to 0, the stamp advances, the sample is taken (R63, R70, R132). -/
def sampled (s : Machine.State) : Machine.State :=
  { s with
    timebase := { s.timebase with prescaleCount := 0, periodCount := 0, stamp := nextStamp s.timebase.stamp }
    lanes := { s.lanes with sample := s.sampledLevels }
    free := s.free + 1 }

/-- The mismatching lanes of a row at a tick: expecting, enabled by the mask, and at the other level in the tick's sample (R138). -/
def mismatching (s : Machine.State) (row : LatchedRow) (n : Lane) : Bool :=
  s.compare.mask.getLsbD n.val &&
    ((row.states.get n == .expectingLow && s.lanes.sample.get n) ||
     (row.states.get n == .expectingHigh && !s.lanes.sample.get n))

/-- The fail record of a fail of the latched row (R142). -/
def recordOf (s : Machine.State) (kind : FailKind) (region : Region) (row : RowNum) (failing : Lanes Bool) : FailRecord where
  kind := kind
  region := region
  row := row
  pass := if region = .loop then some (if s.run.passCount = 0xFFFF then 0xFFFF else s.run.passCount + 1) else none
  failing := failing
  levels := s.lanes.sample
  stamp := s.timebase.stamp

/-! ### The invariant -/

/-- The window in effect is one that SET WINDOW accepts, and the cursor is a place of its walk (R19). -/
structure WindowSound (w : AccessWindow) : Prop where
  rows : w.eff.rowStart ≤ w.eff.rowEnd
  lanes : w.eff.laneStart ≤ w.eff.laneEnd
  cellsLow : 1 ≤ w.eff.mode.cells.toNat
  cellsHigh : w.eff.mode.cells.toNat ≤ 5
  cursorRow : w.eff.rowStart ≤ w.cursor.row ∧ w.cursor.row ≤ w.eff.rowEnd
  cursorLane : w.eff.laneStart ≤ w.cursor.lane ∧ w.cursor.lane ≤ w.eff.laneEnd
  attributeLane : w.eff.mode.plane = .attributes → w.cursor.lane = w.eff.laneStart

/-- An entry holds between 1 and 5 cell writes, or one attribute write (R40). -/
def EntrySound : Entry → Prop
  | .cells ts => 1 ≤ ts.length ∧ ts.length ≤ 5
  | .attributes _ _ => True

/-- The queue holds at most 64 entries, a closed batch and an undamaged open batch hold at least one (R40, R42). -/
structure QueueSound (q : UpdateQueue) : Prop where
  held : q.held ≤ 64
  closedNonempty : ∀ b ∈ q.closed, b.entries ≠ []
  openNonempty : ∀ b, q.openBatch = some b → b.damaged = false → b.entries ≠ []
  closedEntries : ∀ b ∈ q.closed, ∀ e ∈ b.entries, EntrySound e
  openEntries : ∀ b, q.openBatch = some b → ∀ e ∈ b.entries, EntrySound e

/-- The timebase counts exactly while a run plays (R67), within its division and period (R62), and a first latch waits only for
a commit application in progress (R65). -/
structure TimebaseSound (s : Machine.State) : Prop where
  counting : s.timebase.counting = s.run.seq.running
  prescaleCount : s.timebase.counting = true → s.timebase.prescaleCount < s.timebase.division
  periodCount : s.timebase.counting = true → s.timebase.periodCount < s.timebase.periodLength
  startHeld : s.timebase.startHeld = true → s.timebase.counting = true ∧ s.pm.commits ≠ []

/-- While the layout is locked it is valid, and a pending offset is less than L (R77). -/
structure LayoutSound (r : RunControl) : Prop where
  valid : r.seq = .armed ∨ r.seq.running = true → r.layoutValid = true
  pending : ∀ e, r.pendingOffset = some e → e.toNat < r.loopLen.toNat

/-- Stop pending and offset pending are present only while a run plays (R171). -/
structure MarksSound (r : RunControl) : Prop where
  stop : r.seq.running = false → r.stopMark = false
  pending : r.seq.running = false → r.pendingOffset = none

/-- When the target in force is not zero, the pass count never exceeds it, and before the tail it is below it (R89). -/
structure TargetSound (r : RunControl) : Prop where
  atMost : r.targetInForce ≠ 0 → r.passCount.toNat ≤ r.targetInForce.toNat
  below : r.targetInForce ≠ 0 → r.seq = .head ∨ r.seq = .loop → r.passCount.toNat < r.targetInForce.toNat

/-- The current row lies in the region of the sequencer state (R86), and in LOOP it is the row of the pass order that the ended
rows of the pass give (R78). -/
structure PositionSound (r : RunControl) : Prop where
  head : r.seq = .head → r.base.toNat ≤ r.curRow.val ∧ r.curRow.val < r.loopStart
  loop : r.seq = .loop → r.passRows < r.loopLen.toNat ∧
    r.curRow.val = r.loopStart + (r.entryOffset.toNat + r.passRows) % r.loopLen.toNat
  tail : r.seq = .tail → r.tailStart ≤ r.curRow.val ∧ r.curRow.val < r.layoutEnd

/-- A row is latched exactly in HEAD, LOOP, TAIL and HALTED, and it is the current row (R103); with none latched the phase is
DWELL and the counts are 0; only a wait row waits; a row being played has not reached its dwell; STROBE holds 1 to 256. -/
structure PlaySound (s : Machine.State) : Prop where
  latched : s.play.latched.isSome = (s.run.seq.running || s.run.seq == .halted)
  row : ∀ row, s.play.latched = some row → row.row = s.run.curRow
  unlatched : s.play.latched = none → s.play.phase = .dwell ∧ s.play.tickInRow = 0 ∧ s.play.waitCount = 0
  waits : ∀ row, s.play.latched = some row → s.play.phase = .waiting → row.wait = true
  notEnded : ∀ row, s.play.latched = some row → s.run.seq.running = true → s.play.tickInRow < dwellOf row.dwellLess1
  noTimeout : s.timeoutDue = false
  strobeLow : 1 ≤ s.play.strobe.toNat
  strobeHigh : s.play.strobe.toNat ≤ 256

/-- In IDLE and ARMED every lane's effective state is its park state (R129); while a run plays it is the resolved state of the
latched row (R125); the drivers and terminations are off exactly while RESET_N is low (R134). -/
structure LanesSound (s : Machine.State) : Prop where
  active : s.lanes.active = !s.pins.resetLow
  parked : s.pins.resetLow = false → s.run.seq = .idle ∨ s.run.seq = .armed → s.lanes.effective = s.lanes.parkStates
  played : ∀ row, s.play.latched = some row → s.run.seq.running = true → s.lanes.effective = row.states

/-- A fail record is well formed: it names at least one failing lane, carries a stamp of at least 1, and has a pass field of at
least 1 exactly when its region is LOOP (R142). -/
structure RecordSound (r : FailRecord) : Prop where
  failing : r.failing.any = true
  stamp : 1 ≤ r.stamp.toNat
  pass : r.pass.isSome = (r.region == .loop)
  passLow : ∀ p, r.pass = some p → 1 ≤ p.toNat

/-- The log holds at most 32 records, whose stamps never decrease from oldest to newest and do not pass the stamp (R143). -/
structure LogSound (s : Machine.State) : Prop where
  length : s.compare.log.length ≤ 32
  ordered : s.compare.log.Pairwise fun a b => a.stamp.toNat ≤ b.stamp.toNat
  reached : ∀ r ∈ s.compare.log, r.stamp.toNat ≤ s.timebase.stamp.toNat
  records : ∀ r ∈ s.compare.log, RecordSound r

/-- Pattern memory is in its canonical form; a fill's row is a row of its window and no fill is in progress during the sweep (R171);
during the sweep the sequencer is IDLE, the queue empty (R9) and no commit application is in progress; an application in progress
has at least one cycle left. -/
structure MemorySound (s : Machine.State) : Prop where
  wf : s.pm.rows.wf = true
  fill : ∀ f, s.pm.fill = some f →
    f.rowStart ≤ f.row ∧ f.row ≤ f.rowEnd ∧ f.laneStart ≤ f.laneEnd ∧ s.pm.sweep = none
  sweep : s.pm.sweep.isSome = true →
    s.run.seq = .idle ∧ s.queue.closed = [] ∧ s.queue.openBatch = none ∧ s.pm.commits = []
  commits : ∀ n ∈ s.pm.commits, 1 ≤ n
  reset : s.pins.resetLow = true → s.run.seq = .idle ∧ s.pm.sweep = none ∧ s.pm.fill = none ∧ s.pm.commits = []

/-- The part drives the data lines only with RESET_N high, CS_N and RD_N low and WR_N high (R165). -/
structure BusSound (s : Machine.State) : Prop where
  reset : s.bus.driven.isSome = true → s.pins.resetLow = false
  strobes : s.bus.driven.isSome = true → s.bus.seen = ⟨true, true, false⟩

/-- The invariant of the machine. -/
structure Inv (s : Machine.State) : Prop where
  memory : MemorySound s
  window : WindowSound s.window
  queue : QueueSound s.queue
  timebase : TimebaseSound s
  layout : LayoutSound s.run
  marks : MarksSound s.run
  target : TargetSound s.run
  position : PositionSound s.run
  play : PlaySound s
  lanes : LanesSound s
  keepers : KeepersFollow s.lanes
  log : LogSound s
  bus : BusSound s

end Sys2Proof
end

