-- ==== Sys2Proof/Certificates/Slice0/Obligations.lean ====
section
/-! DEFINITION. The statements for the provers, in the order of the manual's chapters: the queue of commands, the resets, pattern
memory, the access window, staged updates, the timebase, run control, row playback, the lanes, the compare unit, events, the host
bus, and the invariant. Each one about a command says what holds in every state in which the part takes it; the states in which
RESET_N is low or the sweep runs are those of HeldInResetNothingIsTaken and DuringTheSweepRequestsAreRefused. -/

open Sys2Proof Sys2Proof.Machine

/-! ### The queue and CLKIN -/

/-- A step takes the command at the front of the queue and carries it out with the queue's rest (log entry 1). -/
def Obligations.StepTakesTheFrontCommand : Prop :=
  ∀ (s : Machine.State) (c : Instr) (rest : List Instr),
    s.pending = c :: rest → step s = exec c { s with pending := rest }

/-- No rule stops the part: every command, in every state, answers a next state, and leaves the commands behind it waiting. -/
def Obligations.EveryCommandCompletes : Prop :=
  ∀ (c : Instr) (s : Machine.State), Completes c s fun t => t.pending = s.pending

/-- With no command waiting a step is one CLKIN cycle (the model's choice, log entry 1), here one that brings no edge of the bus. It
takes one cycle from the MARK and PASSMARK pulses (R90, R108). Where no run is counting it takes one from the oldest commit
application (R64); that a first latch held back by applications is made with the last of them is the model's reading of section 4.3
(log entry 9). During the sweep it writes one row (R9, R178). Where a run is counting it advances the counts or brings the tick (R63);
the cycles of a commit application in a counting run are those of CommitApplicationLastsItsCycles. -/
def Obligations.EmptyQueueCountsOneCycle : Prop :=
  ∀ s : Machine.State, s.pending = [] →
    (s.pins.resetLow = true → step s = .next s) ∧
    (Ready s → BusQuiet s → s.takesCycles = false → ∃ t, step s = .next t ∧
      SameBut [.pm, .timebase, .run, .play] s t ∧
      t.run = { s.run with passmarkCycles := s.run.passmarkCycles - 1 } ∧
      t.play = { s.play with markCycles := s.play.markCycles - 1 } ∧
      t.pm = { s.pm with commits :=
        match s.pm.commits with
        | [] => []
        | n :: rest => if n ≤ 1 then rest else (n - 1) :: rest } ∧
      t.timebase = { s.timebase with startHeld :=
        if t.pm.commits = [] ∧ s.pm.commits ≠ [] then false else s.timebase.startHeld }) ∧
    (s.pins.resetLow = false → BusQuiet s → s.pm.sweep.isSome = true → s.takesCycles = false → s.pm.commits = [] →
      step s = exec .sweepRowWrite (pulsed s 1)) ∧
    (Ready s → BusQuiet s → s.takesCycles = true → s.pm.commits = [] →
      let division := 2 ^ s.timebase.prescale.toNat
      let period := s.timebase.period.toNat + 1
      s.timebase.prescaleCount < division → s.timebase.periodCount < period →
      (s.timebase.prescaleCount + 1 = division → s.timebase.periodCount + 1 = period →
        step s = exec .tick (pulsed s 1)) ∧
      (s.timebase.prescaleCount + 1 < division → step s = .next { pulsed s 1 with
        timebase := { s.timebase with prescaleCount := s.timebase.prescaleCount + 1 } }) ∧
      (s.timebase.prescaleCount + 1 = division → s.timebase.periodCount + 1 < period → step s = .next { pulsed s 1 with
        timebase := { s.timebase with prescaleCount := 0, periodCount := s.timebase.periodCount + 1 } }))

/-! ### The resets -/

/-- The supply is applied (R9, R134): every block at its power-on values, every keeper low but where the unit under test drives its
pin, and the sweep at row 0. That PM holds what it held is the model's choice (log entry 4), as are the levels of the input pins and
the bus lines (log entries 12 and 29), the sweep that waits for the release where RESET_N is low (log entry 21), and the reset values
the manual does not give of the rows ended, the last wait check and the last word read (log entry 13). -/
def Obligations.PowerOnSetsEveryBlock : Prop :=
  ∀ s : Machine.State, Completes .powerOn s fun t =>
    t.pm = { rows := s.pm.rows, sweep := if s.pins.resetLow then none else some 0, fill := none, commits := [] } ∧
    t.window = .reset ∧ t.queue = .reset ∧ t.timebase = .reset ∧ t.run = .reset ∧ t.play = .reset ∧ t.compare = .reset ∧
    t.events = .reset ∧ t.bus = .resetWith s.pins.lines.strobes ∧ t.pins = s.pins ∧ t.pending = s.pending ∧
    t.lanes.effective = Lanes.all .released ∧ t.lanes.park = Lanes.all .release ∧ t.lanes.term = Lanes.all .none ∧
    t.lanes.uut = s.lanes.uut ∧ t.lanes.active = !s.pins.resetLow ∧
    (∀ n, t.lanes.keeper.get n = (uutLevel (s.lanes.uut.get n)).getD false)

/-- Taking RESET_N low stops sweep, fill, commit and run at once, empties the queue, clears flags and enables, and turns every driver
and termination off; the part drives no data line and its output pins are released or low (R9, R73, R101, R122, R134, R163, R176).
Which values stand already while the pin is low, and not only after its release, is the model's reading (log entry 20); that the rows
stand whole while the manual does not know their contents is its choice (log entry 4). -/
def Obligations.ResetAssertStopsEverything : Prop :=
  ∀ s : Machine.State, Completes .resetNAssert s fun t =>
    SameBut [.pm, .queue, .timebase, .run, .play, .lanes, .events, .bus, .pins, .free] s t ∧
    t.pins = { s.pins with resetLow := true } ∧
    t.pm = { s.pm with sweep := none, fill := none, commits := [] } ∧ t.queue = .reset ∧
    t.timebase = { s.timebase with counting := false, startHeld := false } ∧
    t.run = { s.run with seq := .idle, stopMark := false, pendingOffset := none, passmarkCycles := 0 } ∧
    t.play = { s.play with latched := none, phase := .dwell, tickInRow := 0, waitCount := 0, markCycles := 0 } ∧
    t.events.flags = 0 ∧ t.events.enables = 0 ∧ t.bus = { s.bus with readWord := none, driven := none } ∧
    (∀ n, t.lanes.driver n = none ∧ t.lanes.pull n = none) ∧
    t.lanes.park = s.lanes.park ∧ t.lanes.term = s.lanes.term ∧ t.lanes.uut = s.lanes.uut ∧
    KeepersHold s.lanes t.lanes ∧ KeepersFollow t.lanes ∧
    t.irqLow = false ∧ t.runningPin = false ∧ t.passmarkPin = false ∧ t.markPin = false

/-- At the release of RESET_N every block takes its power-on values, each keeper keeps the level it held and follows its pin, and a
new sweep begins at row 0 (R9, R134, R176). That PM holds what it held is the model's choice (log entry 4), as are the input pins and
bus lines that stay (log entries 12 and 29) and the reset values the manual does not give (log entry 13). With the pin high there is
no release (log entry 3). -/
def Obligations.ReleaseBeginsTheSweep : Prop :=
  ∀ s : Machine.State,
    (s.pins.resetLow = true → s.lanes.active = false → Completes .resetNRelease s fun t =>
      t.pm = { rows := s.pm.rows, sweep := some 0, fill := none, commits := [] } ∧
      t.window = .reset ∧ t.queue = .reset ∧ t.timebase = .reset ∧ t.run = .reset ∧ t.play = .reset ∧ t.compare = .reset ∧
      t.events = .reset ∧ t.bus = .resetWith s.pins.lines.strobes ∧ t.pins = { s.pins with resetLow := false } ∧ t.pending = s.pending ∧
      t.lanes.effective = Lanes.all .released ∧ t.lanes.park = Lanes.all .release ∧ t.lanes.term = Lanes.all .none ∧
      t.lanes.uut = s.lanes.uut ∧ t.lanes.active = true ∧
      (∀ n, t.lanes.keeper.get n = (uutLevel (s.lanes.uut.get n)).getD (s.lanes.keeper.get n))) ∧
    (s.pins.resetLow = false → exec .resetNRelease s = .next s)

/-- While RESET_N is low no bus cycle is taken and no read answered, TRIG is not sampled for an edge, no tick is produced, and IRQ_N is
released with RUNNING, PASSMARK and MARK low (R73, R84, R165, R176). That TRIG_EDGE still sets the level kept for the next sample is
the model's choice (log entry 14); that a row end or a timeout has no cause there is log entry 3. -/
def Obligations.HeldInResetNothingIsTaken : Prop :=
  ∀ s : Machine.State, s.pins.resetLow = true →
    (∀ c, c.request ≠ .event → exec c s = .next s) ∧ (∀ addr, s.readReg addr = none) ∧
    (∀ level, exec (.trigEdge level) s = .next { s with pins := { s.pins with trig := level } }) ∧
    exec .tick s = .next s ∧ exec .waitTimeout s = .next s ∧ exec .rowEnd s = .next s ∧
    s.irqLow = false ∧ s.runningPin = false ∧ s.passmarkPin = false ∧ s.markPin = false

/-- SOFT RESET (R177): each block takes its reset in the one event, PM keeps its contents, a fill in progress writes the row it has
begun, if any, and ends without FILLDONE, the serial advances, PART_ID and REVISION stay. Whether a fill has a row begun is open where
no commit application is in progress (log entry 6). The model's choices: a commit application goes on (log entry 8) and a row begun is
written after it (log entries 3 and 7), the open level of a keeper taken from a pull midway (log entry 10) and the reset values the
manual does not give (log entry 13). -/
def Obligations.SoftResetTakesEveryBlock : Prop :=
  ∀ s : Machine.State, Ready s → Completes .softReset s fun t =>
    FillEnded s.pm t.pm ∧
    t.window = .reset ∧ t.queue = .reset ∧ t.timebase = .reset ∧ t.run = .reset ∧ t.play = .reset ∧ t.compare = .reset ∧
    t.events = .reset ∧ t.bus = { s.bus with outcome := .accepted, serial := s.bus.serial + 1 } ∧
    SameBut [.pm, .window, .queue, .timebase, .run, .play, .lanes, .compare, .events, .bus, .free] s t ∧
    t.lanes.effective = Lanes.all .released ∧ t.lanes.park = Lanes.all .release ∧ t.lanes.term = Lanes.all .none ∧
    t.lanes.uut = s.lanes.uut ∧ t.lanes.active = s.lanes.active ∧ KeepersHold s.lanes t.lanes ∧
    t.irqLow = false ∧ t.runningPin = false ∧ t.passmarkPin = false ∧ t.markPin = false ∧
    t.readReg 0x00 = some 0xEF41 ∧ t.readReg 0x01 = some 0x0001 ∧
    (∀ f, t.pm.fill = some f → t.pm.commits = [] → exec .fillRowWrite t = .next (lastRowWritten t f))

/-- The reset column of the register map (R167), after the release of RESET_N and after SOFT RESET with no fill in progress; STATUS
reads 0x0040 during the sweep. Reads are the function `State.regWord` (log entry 17). -/
def Obligations.RegistersReadTheirResetColumn : Prop :=
  (∀ p ∈ resetColumn, State.reset.readReg p.1 = some p.2) ∧
  State.reset.readReg 0x02 = some 0x0040 ∧ State.reset.readReg 0x04 = some 0 ∧ State.reset.readReg 0x05 = some 0 ∧
  (∀ s : Machine.State, s.pins.resetLow = true → Completes .resetNRelease s fun t =>
    (∀ p ∈ resetColumn, t.readReg p.1 = some p.2) ∧
    t.readReg 0x02 = some 0x0040 ∧ t.readReg 0x04 = some 0 ∧ t.readReg 0x05 = some 0) ∧
  (∀ s : Machine.State, Ready s → s.pm.fill = none → Completes .softReset s fun t =>
    (∀ p ∈ resetColumn, t.readReg p.1 = some p.2) ∧ t.readReg 0x02 = some 0 ∧ t.readReg 0x05 = some 0)

/-! ### Pattern memory -/

/-- The requests during the initialization sweep, row by row of the table of R10. -/
def Obligations.DuringTheSweepRequestsAreRefused : Prop :=
  ∀ s : Machine.State, s.pins.resetLow = false → s.pm.sweep.isSome = true →
    (∀ c, c.request = .command → exec c s = .next (s.report .refusedBusy)) ∧
    (∀ ones, exec (.eventsWrite ones) s =
      .next { s with events := { s.events with flags := s.events.flags &&& ~~~ones } }) ∧
    (∀ c, c.request = .registerWrite → exec c s = .next (s.raise .accErr)) ∧
    (∀ addr value, registerRow addr value = none → exec (.registerWrite addr value) s = .next s) ∧
    (∀ word, exec (.dataWrite word) s = .next (s.raise .accErr)) ∧
    exec .dataRead s = .next ({ s with bus := { s.bus with readWord := some 0 } }.raise .accErr) ∧
    (∀ addr : Addr, addr ≠ 0x02 → addr ≠ 0x0E →
      s.readReg addr = { s with pm := { s.pm with sweep := none } }.readReg addr) ∧
    (s.run.seq = .idle → ∀ level, exec (.trigEdge level) s = .next { s with pins := { s.pins with trig := level } }) ∧
    (s.events.enables = 0 → ∀ c t, exec c s = .next t → t.irqLow = false)

/-- A sweep row write sets its row to the reset contents and leaves every other row; after row 4095 the sweep is complete and INITDONE
is raised (R9, R11). -/
def Obligations.SweepRowWriteClearsItsRow : Prop :=
  ∀ (s : Machine.State) (r : RowNum), s.pm.sweep = some r → Completes .sweepRowWrite s fun t =>
    (∀ q, t.pm.rows.row q = if q = r then RowData.reset else s.pm.rows.row q) ∧
    t.pm.sweep = (if r = 4095 then none else some (r + 1)) ∧ t.pm.fill = s.pm.fill ∧ t.pm.commits = s.pm.commits ∧
    Raises s t (fun e => e = .initDone ∧ r = 4095) ∧ SameBut [.pm, .events] s t

/-- The whole sweep: 4096 sweep row writes from row 0 leave every row at its reset contents, raise INITDONE once, and change nothing
else (R9, R11). The row writes are 4096 commands, or 4096 CLKIN cycles of an empty queue (R178; log entry 1), in which the pulses of
PASSMARK and MARK count down too. -/
def Obligations.SweepLeavesEveryRowReset : Prop :=
  ∀ s : Machine.State, s.pm.rows.wf = true → s.pm.sweep = some 0 →
    (∀ rest, s.pending = List.replicate 4096 .sweepRowWrite ++ rest →
      steps 4096 s = .next { s with
        pm := { s.pm with rows := [], sweep := none }
        events := s.events.raise .initDone
        pending := rest }) ∧
    (s.pending = [] → s.pins.resetLow = false → BusQuiet s → s.takesCycles = false → s.pm.commits = [] →
      steps 4096 s = .next { pulsed s 4096 with
        pm := { s.pm with rows := [], sweep := none }
        events := s.events.raise .initDone })

/-- FILL (R12): its checks in order, and the copy a fill takes. -/
def Obligations.FillTakesItsOwnCopy : Prop :=
  ∀ s : Machine.State,
    (s.pins.resetLow = false → s.pm.sweep.isSome = true → exec .fill s = .next (s.report .refusedBusy)) ∧
    (Ready s →
      (s.pm.fill.isSome = true → exec .fill s = .next (s.report .refusedBusy)) ∧
      (s.pm.fill = none → s.window.eff.mode.plane = .cells → CellCode.ofBits (s.window.fillValue.extractLsb' 0 3) = none →
        exec .fill s = .next (s.report .refusedWindow)) ∧
      (∀ v : FillValue, s.pm.fill = none →
        ((s.window.eff.mode.plane = .cells ∧
            ∃ c, CellCode.ofBits (s.window.fillValue.extractLsb' 0 3) = some c ∧ v = .cells c) ∨
          (s.window.eff.mode.plane = .attributes ∧
            v = .attributes ⟨s.window.fillValue.extractLsb' 0 8, s.window.fillValue.getLsbD 8, s.window.fillValue.getLsbD 9⟩)) →
        exec .fill s = .next ({ s with pm := { s.pm with fill := some {
            rowStart := s.window.eff.rowStart
            rowEnd := s.window.eff.rowEnd
            laneStart := s.window.eff.laneStart
            laneEnd := s.window.eff.laneEnd
            direction := s.window.eff.mode.direction
            value := v
            row := if s.window.eff.mode.direction = Direction.ascending then s.window.eff.rowStart else s.window.eff.rowEnd
            ending := false } } }.report .accepted)))

/-- FILL ABORT (R17): EMPTY with no fill; otherwise accepted, and the fill writes the row it has begun, if any, the last row too, and
ends without FILLDONE; a second one changes nothing. With a commit application in progress, which PM takes between two fill row writes
(R16), no row is begun and the fill is over; at any other time whether one is begun is open (log entry 6). -/
def Obligations.FillAbortEndsAfterTheRowBegun : Prop :=
  ∀ s : Machine.State, Ready s →
    (s.pm.fill = none → exec .fillAbort s = .next (s.report .empty)) ∧
    (s.pm.fill.isSome = true → Completes .fillAbort s fun t =>
      FillEnded s.pm t.pm ∧ t.bus = { s.bus with outcome := .accepted, serial := s.bus.serial + 1 } ∧
      SameBut [.pm, .bus, .free] s t ∧
      (∀ f, t.pm.fill = some f → t.pm.commits = [] → exec .fillRowWrite t = .next (lastRowWritten t f))) ∧
    (∀ f, s.pm.fill = some f → f.ending = true → exec .fillAbort s = .next (s.report .accepted))

/-- A fill row write (R13): the cells of its row within the lane bounds, or the row's attribute record, take the fill value; every
other cell and record stays. While a commit application is in progress PM takes no fill row write (1.2, R4, R16): the command does
nothing then, and the fill stays at its row (log entries 3 and 7). -/
def Obligations.FillRowWriteSetsItsRow : Prop :=
  ∀ (s : Machine.State) (f : Fill), s.pm.fill = some f →
    (s.pm.commits ≠ [] → exec .fillRowWrite s = .next s) ∧
    (s.pm.commits = [] → Completes .fillRowWrite s fun t =>
    (∀ q n, t.pm.rows.cell q n =
      match f.value with
      | .cells c => if q = f.row ∧ f.laneStart ≤ n ∧ n ≤ f.laneEnd then c else s.pm.rows.cell q n
      | .attributes _ => s.pm.rows.cell q n) ∧
    (∀ q, t.pm.rows.attributes q =
      match f.value with
      | .cells _ => s.pm.rows.attributes q
      | .attributes a => if q = f.row then a else s.pm.rows.attributes q) ∧
    t.pm.sweep = s.pm.sweep ∧ t.pm.commits = s.pm.commits ∧ SameBut [.pm, .events] s t ∧
    (let last := f.row = if f.direction = Direction.ascending then f.rowEnd else f.rowStart
     Raises s t (fun e => e = .fillDone ∧ f.ending = false ∧ last) ∧
     (f.ending = true ∨ last → t.pm.fill = none) ∧
     (f.ending = false → ¬last →
       t.pm.fill = some { f with row := if f.direction = Direction.ascending then f.row + 1 else f.row - 1 })))

/-- A whole fill (R13): after k of its row writes the first k rows of its window, in the row direction, hold the fill value in the
fill's reach and everything else in PM is as it was; the last row ends the fill with FILLDONE. No commit application is in progress,
during which PM would take none of them (log entries 3 and 7). -/
def Obligations.FillWritesItsWindowAndNothingElse : Prop :=
  ∀ (s : Machine.State) (f : Fill) (rest : List Instr) (k : Nat),
    s.pm.fill = some f → f.ending = false → s.pm.commits = [] → f.rowStart ≤ f.rowEnd →
    f.row = (if f.direction = Direction.ascending then f.rowStart else f.rowEnd) →
    k ≤ f.rowEnd.val - f.rowStart.val + 1 →
    s.pending = List.replicate k .fillRowWrite ++ rest →
    ∃ t, steps k s = .next t ∧ t.pending = rest ∧ SameBut [.pm, .events, .pending] s t ∧
      (let reached := fun q : RowNum =>
        if f.direction = Direction.ascending then f.rowStart.val ≤ q.val ∧ q.val < f.rowStart.val + k
        else q.val ≤ f.rowEnd.val ∧ f.rowEnd.val < q.val + k
       (∀ q n, t.pm.rows.cell q n =
          match f.value with
          | .cells c => if reached q ∧ f.laneStart ≤ n ∧ n ≤ f.laneEnd then c else s.pm.rows.cell q n
          | .attributes _ => s.pm.rows.cell q n) ∧
       (∀ q, t.pm.rows.attributes q =
          match f.value with
          | .cells _ => s.pm.rows.attributes q
          | .attributes a => if reached q then a else s.pm.rows.attributes q)) ∧
      t.pm.sweep = s.pm.sweep ∧ t.pm.commits = s.pm.commits ∧
      (t.pm.fill = none ↔ k = f.rowEnd.val - f.rowStart.val + 1) ∧
      Raises s t (fun e => e = .fillDone ∧ k = f.rowEnd.val - f.rowStart.val + 1)

/-- The requests that a fill in progress refuses: the table of R14. -/
def Obligations.DuringAFillRequestsAreRefused : Prop :=
  ∀ s : Machine.State, Ready s → s.pm.fill.isSome = true →
    (∀ word, exec (.dataWrite word) s = .next (s.raise .accErr)) ∧
    exec .dataRead s = .next ({ s with bus := { s.bus with readWord := some 0 } }.raise .accErr) ∧
    exec .setWindow s = .next (s.report .refusedBusy) ∧ exec .seek s = .next (s.report .refusedBusy) ∧
    exec .fill s = .next (s.report .refusedBusy) ∧ exec .commit s = .next (s.report .refusedBusy)

/-! ### The access window -/

/-- A window register write stores its value unchecked in the held window or in FILL_VALUE and touches nothing else (R20). -/
def Obligations.WindowRegisterWriteHolds : Prop :=
  ∀ (s : Machine.State) (value : Word),
    (Ready s →
      exec (.windowRegisterWrite .rowStart value) s =
        .next { s with window := { s.window with held := { s.window.held with rowStart := value } } } ∧
      exec (.windowRegisterWrite .rowEnd value) s =
        .next { s with window := { s.window with held := { s.window.held with rowEnd := value } } } ∧
      (Completes (.windowRegisterWrite .lanes value) s fun t =>
        t = { s with window := { s.window with held := { s.window.held with
          laneStart := t.window.held.laneStart, laneEnd := t.window.held.laneEnd } } } ∧
        t.window.held.laneStart.val = value.toNat % 16 ∧ t.window.held.laneEnd.val = value.toNat / 16 % 16 ∧
        t.regWord 0x0A = value &&& 0x00FF) ∧
      (Completes (.windowRegisterWrite .mode value) s fun t =>
        t = { s with window := { s.window with held := { s.window.held with mode := t.window.held.mode } } } ∧
        (t.window.held.mode.traversal = .rowFirst ↔ value.getLsbD 0 = true) ∧
        (t.window.held.mode.direction = .descending ↔ value.getLsbD 1 = true) ∧
        (t.window.held.mode.plane = .attributes ↔ value.getLsbD 2 = true) ∧
        (t.window.held.mode.target = .staged ↔ value.getLsbD 3 = true) ∧
        t.window.held.mode.cells.toNat = value.toNat / 16 % 8 ∧
        t.regWord 0x0B = value &&& 0x007F) ∧
      exec (.windowRegisterWrite .fillValue value) s =
        .next { s with window := { s.window with fillValue := value } }) ∧
    (s.pins.resetLow = false → s.pm.sweep.isSome = true → ∀ reg,
      exec (.windowRegisterWrite reg value) s = .next (s.raise .accErr)) ∧
    s.regWord 0x08 = s.window.held.rowStart ∧ s.regWord 0x09 = s.window.held.rowEnd ∧ s.regWord 0x0F = s.window.fillValue

/-- SET WINDOW (R21, R22) and SEEK (R23): the checks in their order, the held window copied whole, the cursor at the origin. -/
def Obligations.SetWindowAndSeekPlaceTheCursor : Prop :=
  ∀ s : Machine.State,
    (s.pins.resetLow = false → s.pm.sweep.isSome = true ∨ s.pm.fill.isSome = true →
      exec .setWindow s = .next (s.report .refusedBusy) ∧ exec .seek s = .next (s.report .refusedBusy)) ∧
    (Ready s → s.pm.fill = none →
      (let h := s.window.held
       let valid := h.rowStart.toNat ≤ 4095 ∧ h.rowEnd.toNat ≤ 4095 ∧ h.rowStart.toNat ≤ h.rowEnd.toNat ∧
         h.laneStart ≤ h.laneEnd ∧ 1 ≤ h.mode.cells.toNat ∧ h.mode.cells.toNat ≤ 5
       (¬valid → exec .setWindow s = .next (s.report .refusedWindow)) ∧
       (valid → Completes .setWindow s fun t =>
         t = ({ s with window := { s.window with eff := t.window.eff, cursor := t.window.cursor } }.report .accepted) ∧
         t.window.eff.rowStart.val = h.rowStart.toNat ∧ t.window.eff.rowEnd.val = h.rowEnd.toNat ∧
         t.window.eff.laneStart = h.laneStart ∧ t.window.eff.laneEnd = h.laneEnd ∧ t.window.eff.mode = h.mode ∧
         t.window.cursor.row = (if h.mode.direction = Direction.ascending then t.window.eff.rowStart else t.window.eff.rowEnd) ∧
         t.window.cursor.lane = h.laneStart)) ∧
      exec .seek s = .next ({ s with window := { s.window with cursor :=
        { row := if s.window.eff.mode.direction = Direction.ascending then s.window.eff.rowStart else s.window.eff.rowEnd
          lane := s.window.eff.laneStart } } }.report .accepted))

/-- The walk in closed form (R24, R25, R26, R27): with R rows and L lanes, move number k from the origin stands at row k / L and lane
k mod L of the window under LANE_FIRST, at row k mod R and lane k / R under ROW_FIRST, and at row k and the lane start in the
attribute plane, rows counted in the row direction; only the last place is left by a wrap, which returns to the origin. -/
def Obligations.WalkVisitsPlacesInOrder : Prop :=
  ∀ (w : Window), w.rowStart ≤ w.rowEnd → w.laneStart ≤ w.laneEnd →
    let rows := w.rowEnd.val - w.rowStart.val + 1
    let lanes := w.laneEnd.val - w.laneStart.val + 1
    let length := if w.mode.plane = .cells then rows * lanes else rows
    let rowAt := fun i : Nat => if w.mode.direction = Direction.ascending then w.rowStart.val + i else w.rowEnd.val - i
    (∀ k, k < length →
      (w.mode.plane = .cells → w.mode.traversal = .laneFirst →
        (w.after w.origin k).row.val = rowAt (k / lanes) ∧ (w.after w.origin k).lane.val = w.laneStart.val + k % lanes) ∧
      (w.mode.plane = .cells → w.mode.traversal = .rowFirst →
        (w.after w.origin k).row.val = rowAt (k % rows) ∧ (w.after w.origin k).lane.val = w.laneStart.val + k / rows) ∧
      (w.mode.plane = .attributes →
        (w.after w.origin k).row.val = rowAt k ∧ (w.after w.origin k).lane = w.laneStart) ∧
      (w.atLast (w.after w.origin k) = true ↔ k + 1 = length)) ∧
    w.after w.origin length = w.origin

/-- A whole walk meets every place of the window, and no place twice. -/
def Obligations.WalkMeetsEveryPlaceOnce : Prop :=
  ∀ (w : Window), w.rowStart ≤ w.rowEnd → w.laneStart ≤ w.laneEnd →
    let rows := w.rowEnd.val - w.rowStart.val + 1
    let lanes := w.laneEnd.val - w.laneStart.val + 1
    let walk := w.places w.origin (if w.mode.plane = .cells then rows * lanes else rows)
    walk.Nodup ∧
    ∀ p : Place, p ∈ walk ↔
      w.rowStart ≤ p.row ∧ p.row ≤ w.rowEnd ∧
      (if w.mode.plane = .cells then w.laneStart ≤ p.lane ∧ p.lane ≤ w.laneEnd else p.lane = w.laneStart)

/-- When the window refuses a DATA transfer, and what the refusal leaves (R28). -/
def Obligations.RefusedTransferChangesNothing : Prop :=
  ∀ s : Machine.State, s.pins.resetLow = false →
    (s.pm.sweep.isSome = true ∨ s.pm.fill.isSome = true ∨ (s.window.eff.mode.target = .direct ∧ s.pm.commits ≠ []) →
      ∀ word, exec (.dataWrite word) s = .next (s.raise .accErr)) ∧
    (s.pm.sweep.isSome = true ∨ s.pm.fill.isSome = true ∨ s.pm.commits ≠ [] →
      exec .dataRead s = .next ({ s with bus := { s.bus with readWord := some 0 } }.raise .accErr))

/-- A direct cell write (R29, R30): each place with a valid code takes the code of the last position that names it, every other cell
and every record stays, an invalid code raises CODEERR, and the cursor makes its k moves in every case. -/
def Obligations.DirectCellWriteStoresItsPositions : Prop :=
  ∀ (s : Machine.State) (word : Word), Ready s → s.pm.fill = none → s.pm.commits = [] →
    s.window.eff.mode.target = .direct → s.window.eff.mode.plane = .cells →
    let k := s.window.eff.mode.cells.toNat
    Completes (.dataWrite word) s fun t =>
      (∀ i c, i < k → codeAt word i = some c →
        (∀ j, i < j → j < k → place s j = place s i → codeAt word j = none) →
        t.pm.rows.cell (place s i).row (place s i).lane = c) ∧
      (∀ r n, (∀ i, i < k → place s i = ⟨r, n⟩ → codeAt word i = none) → t.pm.rows.cell r n = s.pm.rows.cell r n) ∧
      (∀ r, t.pm.rows.attributes r = s.pm.rows.attributes r) ∧
      t.pm.sweep = s.pm.sweep ∧ t.pm.fill = s.pm.fill ∧ t.pm.commits = s.pm.commits ∧
      Moved s t k ∧ Raises s t (fun e => (e = .codeErr ∧ invalidAmong word k) ∨ (e = .wrap ∧ wraps s k)) ∧
      SameBut [.pm, .window, .events] s t

/-- A direct attribute write (R31): the record of the cursor row is replaced whole, every other record and every cell stays, and the
cursor makes one move. -/
def Obligations.DirectAttributeWriteStoresTheRecord : Prop :=
  ∀ (s : Machine.State) (word : Word), Ready s → s.pm.fill = none → s.pm.commits = [] →
    s.window.eff.mode.target = .direct → s.window.eff.mode.plane = .attributes →
    Completes (.dataWrite word) s fun t =>
      (∀ r, t.pm.rows.attributes r = if r = s.window.cursor.row
        then ⟨word.extractLsb' 0 8, word.getLsbD 8, word.getLsbD 9⟩ else s.pm.rows.attributes r) ∧
      (∀ r n, t.pm.rows.cell r n = s.pm.rows.cell r n) ∧
      t.pm.sweep = s.pm.sweep ∧ t.pm.fill = s.pm.fill ∧ t.pm.commits = s.pm.commits ∧
      Moved s t 1 ∧ Raises s t (fun e => e = .wrap ∧ wraps s 1) ∧ SameBut [.pm, .window, .events] s t

/-- A DATA read (R32, R33) returns PM as it stands, in either target: the codes of k places, or the record of the cursor row; the
bits above them read 0, PM is not changed, and the cursor makes its moves. -/
def Obligations.DataReadReturnsMemory : Prop :=
  ∀ s : Machine.State, Ready s → s.pm.fill = none → s.pm.commits = [] → s.window.eff.mode.cells.toNat ≤ 5 →
    let k := if s.window.eff.mode.plane = .cells then s.window.eff.mode.cells.toNat else 1
    Completes .dataRead s fun t => ∃ word : Word,
      t.bus = { s.bus with readWord := some word } ∧
      (s.window.eff.mode.plane = .cells →
        (∀ i, i < k → word.extractLsb' (3 * i) 3 = (s.pm.rows.cell (place s i).row (place s i).lane).toBits) ∧
        word.toNat < 8 ^ k) ∧
      (s.window.eff.mode.plane = .attributes →
        (⟨word.extractLsb' 0 8, word.getLsbD 8, word.getLsbD 9⟩ : Attributes) = s.pm.rows.attributes s.window.cursor.row ∧
        word.toNat < 1024) ∧
      Moved s t k ∧ Raises s t (fun e => e = .wrap ∧ wraps s k) ∧ SameBut [.window, .events, .bus] s t

/-- A staged cell write (R34, R35) with the queue's answers (R44, R45, R46): the valid positions make one entry; a taken entry moves
the cursor, a refused one raises QFULL and leaves it, and with no valid code nothing is offered. -/
def Obligations.StagedCellWriteOffersOneEntry : Prop :=
  ∀ (s : Machine.State) (word : Word), Ready s → s.pm.fill = none →
    s.window.eff.mode.target = .staged → s.window.eff.mode.plane = .cells →
    let k := s.window.eff.mode.cells.toNat
    let triples := (List.range k).filterMap fun i =>
      (codeAt word i).map fun c => (⟨(place s i).row, (place s i).lane, c⟩ : Triple)
    let answer := offerAnswer s.queue (.cells triples)
    Completes (.dataWrite word) s fun t =>
      SameBut [.window, .queue, .events] s t ∧
      (triples = [] → t.queue = s.queue ∧ Moved s t k ∧
        Raises s t (fun e => (e = .codeErr ∧ invalidAmong word k) ∨ (e = .wrap ∧ wraps s k))) ∧
      (triples ≠ [] → t.queue = answer.2 ∧
        (answer.1 = true → Moved s t k ∧
          Raises s t (fun e => (e = .codeErr ∧ invalidAmong word k) ∨ (e = .wrap ∧ wraps s k))) ∧
        (answer.1 = false → t.window = s.window ∧
          Raises s t (fun e => (e = .codeErr ∧ invalidAmong word k) ∨ e = .qFull)))

/-- A staged attribute write (R36): an entry for the cursor row with the word's record is offered, and taken or refused by the queue
(R44, R45, R46). -/
def Obligations.StagedAttributeWriteOffersOneEntry : Prop :=
  ∀ (s : Machine.State) (word : Word), Ready s → s.pm.fill = none →
    s.window.eff.mode.target = .staged → s.window.eff.mode.plane = .attributes →
    let answer := offerAnswer s.queue
      (.attributes s.window.cursor.row ⟨word.extractLsb' 0 8, word.getLsbD 8, word.getLsbD 9⟩)
    Completes (.dataWrite word) s fun t =>
      SameBut [.window, .queue, .events] s t ∧ t.queue = answer.2 ∧
      (answer.1 = true → Moved s t 1 ∧ Raises s t (fun e => e = .wrap ∧ wraps s 1)) ∧
      (answer.1 = false → t.window = s.window ∧ Raises s t (fun e => e = .qFull))

/-! ### Staged updates -/

/-- CLOSE BATCH (R47, R48), DISCARD BATCH (R49) and FLUSH QUEUE (R50): what leaves the queue, the outcome, BATCHDROP. -/
def Obligations.BatchCommandsActOnTheirBatches : Prop :=
  ∀ s : Machine.State, Ready s →
    (s.queue.openBatch = none →
      exec .closeBatch s = .next (s.report .empty) ∧ exec .discardBatch s = .next (s.report .empty)) ∧
    (∀ b, s.queue.openBatch = some b →
      (b.damaged = false → exec .closeBatch s = .next ({ s with queue := { s.queue with
        closed := s.queue.closed ++ [(⟨b.number, b.entries⟩ : Batch)], openBatch := none } }.report .accepted)) ∧
      (b.damaged = true → exec .closeBatch s =
        .next (({ s with queue := { s.queue with openBatch := none } }.raise .batchDrop).report .dropped)) ∧
      exec .discardBatch s = .next ({ s with queue := { s.queue with openBatch := none } }.report .accepted)) ∧
    exec .flushQueue s = .next ({ s with queue := { s.queue with closed := [], openBatch := none } }.report .accepted)

/-- The COMMIT command (R54) and what a commit does (R51, R52): every closed batch reaches PM, each cell and record with its last
write, the open batch stays, COMMIT is raised once if a batch was waiting. That PM has the writes at once and counts the application's
cycles after them is the model's reading of R64 (log entry 8). -/
def Obligations.CommitAppliesClosedBatches : Prop :=
  ∀ s : Machine.State,
    (s.pins.resetLow = false → s.pm.sweep.isSome = true ∨ s.pm.fill.isSome = true →
      exec .commit s = .next (s.report .refusedBusy)) ∧
    (Ready s → s.pm.fill = none → s.run.seq = .armed ∨ s.run.seq.running = true →
      exec .commit s = .next (s.report .refusedState)) ∧
    (Ready s → s.pm.fill = none → s.run.seq = .idle ∨ s.run.seq = .halted → Completes .commit s fun t =>
      Committed s t ∧
      t.bus = { s.bus with
        outcome := if s.queue.closed = [] then .empty else .accepted, serial := s.bus.serial + 1 } ∧
      Raises s t (fun e => e = .commit ∧ s.queue.closed ≠ []) ∧
      SameBut [.pm, .queue, .events, .bus] s t)

/-- A commit application is in progress for exactly the CLKIN cycles it takes (R64; the cycles are steps on an empty queue, the
model's choice of log entry 1). A counting run goes on counting under it, but the tick is held back at D - 1 and P - 1 and is produced
on the first counted cycle after the last application. When the oldest finishes and none is left, a first latch that waited for it has
been made (R65, log entry 9). That the command COMMIT_APPLICATION_END ends the oldest whatever cycles are left is log entry 30. -/
def Obligations.CommitApplicationLastsItsCycles : Prop :=
  ∀ (s : Machine.State) (n : Nat) (rest : List Nat), s.pm.commits = n :: rest →
    exec .commitApplicationEnd s = .next { s with
      pm := { s.pm with commits := rest }
      timebase := { s.timebase with startHeld := if rest = [] then false else s.timebase.startHeld } } ∧
    (Ready s → BusQuiet s → s.pending = [] → 1 ≤ n →
      ((∀ k, k < n → ∃ t, steps k s = .next t ∧ t.pm = { s.pm with commits := (n - k) :: rest }) ∧
        ∃ t, steps n s = .next t ∧ t.pm = { s.pm with commits := rest }) ∧
      (s.takesCycles = true →
        let division := 2 ^ s.timebase.prescale.toNat
        let period := s.timebase.period.toNat + 1
        let counts := fun (prescale periods : Nat) => { pulsed s 1 with
          pm := { s.pm with commits := if n = 1 then rest else (n - 1) :: rest }
          timebase := { s.timebase with prescaleCount := prescale, periodCount := periods } }
        s.timebase.prescaleCount < division → s.timebase.periodCount < period →
        (s.timebase.prescaleCount + 1 < division →
          step s = .next (counts (s.timebase.prescaleCount + 1) s.timebase.periodCount)) ∧
        (s.timebase.prescaleCount + 1 = division → s.timebase.periodCount + 1 < period →
          step s = .next (counts 0 (s.timebase.periodCount + 1))) ∧
        (s.timebase.prescaleCount + 1 = division → s.timebase.periodCount + 1 = period →
          step s = .next (counts (division - 1) (period - 1)) ∧
          (rest = [] → steps (n + 1) s = exec .tick { pulsed s (n + 1) with pm := { s.pm with commits := [] } }))))

/-! ### The timebase -/

/-- The gate (R68): GATE_CHANGE sets the pin; a cycle on which the enabled gate holds is not counted, and no tick is produced on it.
The cycle is a step on an empty queue (log entry 1). -/
def Obligations.GateHoldsTheTimebase : Prop :=
  ∀ s : Machine.State,
    (∀ level, exec (.gateChange level) s = .next { s with pins := { s.pins with gate := level } }) ∧
    (s.timebase.gateEnabled = true → s.pins.gate = s.timebase.holdHigh →
      exec .tick s = .next s ∧
      (Ready s → BusQuiet s → s.pm.commits = [] → s.pending = [] → step s = .next (pulsed s 1)))

/-- A tick is produced every D × P counted cycles (R63): from counts of 0, cycle k of an empty queue leaves the prescaler count at
k mod D and the period count at k / D with no tick, and cycle D × P is the TICK. The cycles are steps on an empty queue, the model's
choice of log entry 1; the command TICK as a period that completes is log entry 16. -/
def Obligations.TickEveryDivisionTimesPeriod : Prop :=
  ∀ s : Machine.State, s.pending = [] → BusQuiet s → s.pm.sweep = none → s.pm.commits = [] → s.takesCycles = true →
    s.timebase.prescaleCount = 0 → s.timebase.periodCount = 0 →
    let division := 2 ^ s.timebase.prescale.toNat
    let period := s.timebase.period.toNat + 1
    let after := fun (k prescale periods : Nat) => { pulsed s k with
      timebase := { s.timebase with prescaleCount := prescale, periodCount := periods } }
    (∀ k, k < division * period → steps k s = .next (after k (k % division) (k / division))) ∧
    steps (division * period) s = exec .tick (after (division * period) (division - 1) (period - 1))

/-- Ticks arrive in HEAD, LOOP and TAIL alone (R67), and none while the timebase does not count or a first latch waits; a period
that completes while a commit application is in progress is held back at the counts D - 1 and P - 1 (R64; log entries 8, 9, 16). -/
def Obligations.TickOnlyInARunAndHeldBack : Prop :=
  ∀ s : Machine.State,
    (TimebaseSound s → s.run.seq = .idle ∨ s.run.seq = .armed ∨ s.run.seq = .halted → exec .tick s = .next s) ∧
    (s.timebase.counting = false ∨ s.timebase.startHeld = true → exec .tick s = .next s) ∧
    (s.takesCycles = true → s.pm.commits ≠ [] → exec .tick s = .next { s with timebase := { s.timebase with
      prescaleCount := 2 ^ s.timebase.prescale.toNat - 1, periodCount := s.timebase.period.toNat } })

/-- The registers that are written in IDLE alone: the timebase registers (R72), the layout (R76), STROBE from 1 to 256 (R119) and
WAIT_LIMIT (R120); any other write to them is ignored with ACCERR. Each reads back what it holds (R71, R75, R174). -/
def Obligations.IdleRegistersAreLockedInARun : Prop :=
  ∀ (s : Machine.State) (value : Word),
    (Ready s → s.run.seq = .idle →
      exec (.timebaseWrite .prescale value) s =
        .next { s with timebase := { s.timebase with prescale := value.extractLsb' 0 3 } } ∧
      exec (.timebaseWrite .period value) s = .next { s with timebase := { s.timebase with period := value } } ∧
      exec (.timebaseWrite .gateConfig value) s =
        .next { s with timebase := { s.timebase with gateEnabled := value.getLsbD 0, holdHigh := value.getLsbD 1 } } ∧
      exec (.layoutWrite .base value) s = .next { s with run := { s.run with base := value } } ∧
      exec (.layoutWrite .headLen value) s = .next { s with run := { s.run with headLen := value } } ∧
      exec (.layoutWrite .loopLen value) s = .next { s with run := { s.run with loopLen := value } } ∧
      exec (.layoutWrite .tailLen value) s = .next { s with run := { s.run with tailLen := value } } ∧
      (1 ≤ value.toNat → value.toNat ≤ 256 →
        exec (.strobeWrite value) s = .next { s with play := { s.play with strobe := value } }) ∧
      (value.toNat = 0 ∨ 256 < value.toNat → exec (.strobeWrite value) s = .next (s.raise .accErr)) ∧
      exec (.waitLimitWrite value) s = .next { s with play := { s.play with waitLimit := value } }) ∧
    (s.pins.resetLow = false → s.pm.sweep.isSome = true ∨ s.run.seq ≠ .idle →
      (∀ reg, exec (.timebaseWrite reg value) s = .next (s.raise .accErr)) ∧
      (∀ reg, exec (.layoutWrite reg value) s = .next (s.raise .accErr)) ∧
      exec (.strobeWrite value) s = .next (s.raise .accErr) ∧
      exec (.waitLimitWrite value) s = .next (s.raise .accErr)) ∧
    (s.regWord 0x20).toNat = s.timebase.prescale.toNat ∧ s.regWord 0x21 = s.timebase.period ∧
    (s.regWord 0x22).toNat = (if s.timebase.gateEnabled then 1 else 0) + (if s.timebase.holdHigh then 2 else 0) ∧
    s.regWord 0x14 = s.run.base ∧ s.regWord 0x15 = s.run.headLen ∧ s.regWord 0x16 = s.run.loopLen ∧
    s.regWord 0x17 = s.run.tailLen ∧ s.regWord 0x23 = s.play.strobe ∧ s.regWord 0x24 = s.play.waitLimit

/-! ### Run control -/

/-- START by state (R82), and the run start it makes (R81). A layout that ARM locked is valid (R77). That
the first latch waits for a commit application in progress is log entry 9, that the application's cycles follow it log entry 8, and
that the keeper of a lane driven against the unit under test takes the part's level log entry 11. -/
def Obligations.StartMakesARunStart : Prop :=
  ∀ s : Machine.State,
    (s.pins.resetLow = false → s.pm.sweep.isSome = true → exec .start s = .next (s.report .refusedBusy)) ∧
    (Ready s →
      (s.run.seq = .idle → ¬ValidLayout s.run → exec .start s = .next (s.report .refusedLayout)) ∧
      (s.run.seq = .idle ∨ s.run.seq = .armed → ValidLayout s.run → Completes .start s fun t =>
        RunStarted s t ∧ t.runningPin = true ∧ t.bus = { s.bus with outcome := .accepted, serial := s.bus.serial + 1 } ∧
        SameBut [.pm, .queue, .timebase, .run, .play, .lanes, .compare, .events, .bus, .free] s t) ∧
      (s.run.seq.running = true ∨ s.run.seq = .halted → exec .start s = .next (s.report .refusedState)))

/-- ARM by state (R83): IDLE with a valid layout enters ARMED with a park request, and nothing else begins. That the keeper of a lane
parked against the unit under test takes the part's level is log entry 11. -/
def Obligations.ArmLocksAValidLayout : Prop :=
  ∀ s : Machine.State,
    (s.pins.resetLow = false → s.pm.sweep.isSome = true → exec .arm s = .next (s.report .refusedBusy)) ∧
    (Ready s →
      (s.run.seq = .idle → ¬ValidLayout s.run → exec .arm s = .next (s.report .refusedLayout)) ∧
      (s.run.seq = .idle → ValidLayout s.run → Completes .arm s fun t =>
        t.run = { s.run with seq := .armed } ∧ LanesTake s.lanes t.lanes s.lanes.parkStates ∧
        t.bus = { s.bus with outcome := .accepted, serial := s.bus.serial + 1 } ∧
        SameBut [.run, .lanes, .bus, .free] s t) ∧
      (s.run.seq ≠ .idle → exec .arm s = .next (s.report .refusedState)))

/-- STOP by state (R92). In ARMED the lanes take a park request (R129); that the keeper of a lane parked against the unit under test
takes the part's level is the model's reading (log entry 11). -/
def Obligations.StopMarksTheRun : Prop :=
  ∀ s : Machine.State,
    (Ready s → s.run.seq = .idle ∨ s.run.seq = .halted → exec .stop s = .next (s.report .refusedState)) ∧
    (Ready s → s.run.seq = .head ∨ s.run.seq = .loop →
      exec .stop s = .next ({ s with run := { s.run with stopMark := true } }.report .accepted)) ∧
    (Ready s → s.run.seq = .tail → exec .stop s = .next (s.report .accepted)) ∧
    (Ready s → TimebaseSound s → s.run.seq = .armed → Completes .stop s fun t =>
      t.run = { s.run with seq := .idle } ∧ LanesTake s.lanes t.lanes s.lanes.parkStates ∧
      t.bus = { s.bus with outcome := .accepted, serial := s.bus.serial + 1 } ∧
      SameBut [.run, .lanes, .bus, .free] s t) ∧
    (s.pins.resetLow = false → s.pm.sweep.isSome = true → exec .stop s = .next (s.report .refusedBusy))

/-- ABORT (R95): any state but IDLE ends at once, parked and stopped, with no flag raised and no commit; in IDLE it has no effect.
A first latch that was waiting waits no more (log entry 9); the keeper of a lane parked against the unit under test takes the part's
level (log entry 11). -/
def Obligations.AbortEndsAtOnce : Prop :=
  ∀ s : Machine.State,
    (Ready s → s.run.seq = .idle → exec .abort s = .next (s.report .accepted)) ∧
    (Ready s → s.run.seq ≠ .idle → Completes .abort s fun t =>
      RunEnded s t s.run ∧ t.bus = { s.bus with outcome := .accepted, serial := s.bus.serial + 1 } ∧
      t.runningPin = false ∧ SameBut [.timebase, .run, .play, .lanes, .bus, .free] s t) ∧
    (s.pins.resetLow = false → s.pm.sweep.isSome = true → exec .abort s = .next (s.report .refusedBusy))

/-- TRIG and its polarity (R84): what an edge is, and what run control does with it in each state. The
operand is the level sampled (log entry 14); for the run start see log entries 8, 9 and 11. -/
def Obligations.TrigEdgeStartsAnArmedRun : Prop :=
  ∀ s : Machine.State,
    (∀ level,
      let sampledTrig := { s with pins := { s.pins with trig := level } }
      let edge := s.pins.resetLow = false ∧ s.pins.trig ≠ level ∧ level = !s.run.fallingTrig
      (¬edge ∨ s.run.seq = .idle → exec (.trigEdge level) s = .next sampledTrig) ∧
      (edge → s.run.seq.running = true ∨ s.run.seq = .halted →
        exec (.trigEdge level) s = .next (sampledTrig.raise .trigIgn)) ∧
      (edge → s.run.seq = .armed → ValidLayout s.run → Completes (.trigEdge level) s fun t =>
        RunStarted s t ∧ t.pins = { s.pins with trig := level } ∧
        SameBut [.pm, .queue, .timebase, .run, .play, .lanes, .compare, .events, .pins, .free] s t)) ∧
    (∀ value, Ready s → exec (.runConfigWrite value) s =
      .next { s with run := { s.run with fallingTrig := value.getLsbD 0 } }) ∧
    (∀ value, s.pins.resetLow = false → s.pm.sweep.isSome = true →
      exec (.runConfigWrite value) s = .next (s.raise .accErr))

/-- Writes to ENTRY_OFFSET (R98) and PASS_TARGET (R99), by state. -/
def Obligations.OffsetAndTargetWritesByState : Prop :=
  ∀ (s : Machine.State) (value : Word),
    (Ready s → s.run.seq = .idle →
      exec (.entryOffsetWrite value) s = .next { s with run := { s.run with entryOffset := value } }) ∧
    (Ready s → s.run.seq.running = true → value.toNat < s.run.loopLen.toNat →
      exec (.entryOffsetWrite value) s = .next { s with run := { s.run with pendingOffset := some value } }) ∧
    (Ready s → s.run.seq.running = true → s.run.loopLen.toNat ≤ value.toNat →
      exec (.entryOffsetWrite value) s = .next (s.raise .accErr)) ∧
    (Ready s → s.run.seq = .armed ∨ s.run.seq = .halted →
      exec (.entryOffsetWrite value) s = .next (s.raise .accErr)) ∧
    (Ready s → s.run.seq.running = false →
      exec (.passTargetWrite value) s = .next { s with run := { s.run with passTarget := value } }) ∧
    (Ready s → s.run.seq.running = true → value.toNat = 0 ∨ s.run.passCount.toNat < value.toNat →
      exec (.passTargetWrite value) s =
        .next { s with run := { s.run with passTarget := value, targetInForce := value } }) ∧
    (Ready s → s.run.seq.running = true → value.toNat ≠ 0 → value.toNat ≤ s.run.passCount.toNat →
      exec (.passTargetWrite value) s = .next (s.raise .accErr)) ∧
    (s.pins.resetLow = false → s.pm.sweep.isSome = true →
      exec (.entryOffsetWrite value) s = .next (s.raise .accErr) ∧
      exec (.passTargetWrite value) s = .next (s.raise .accErr)) ∧
    s.regWord 0x18 = s.run.entryOffset ∧ s.regWord 0x19 = s.run.passTarget

/-- A row end inside a region latches the next row of the region (R86): the row after it in HEAD and TAIL, the next loop row in the
pass order of R78 in LOOP. The command ROW_END is the row end that a tick brings (log entry 2); the keeper of a lane driven against
the unit under test takes the part's level (log entry 11). -/
def Obligations.RowEndLatchesTheNextRow : Prop :=
  ∀ (s : Machine.State) (row : LatchedRow), RowEnded s row → LayoutSound s.run → PositionSound s.run →
    (s.run.seq = .head → s.run.curRow.val + 1 < s.run.base.toNat + s.run.headLen.toNat →
      Completes .rowEnd s fun t => ∃ r : RowNum, r.val = s.run.curRow.val + 1 ∧
        t.run = { s.run with curRow := r } ∧ Latched s t r row.states ∧
        Raises s t (fun e => e = .mark ∧ (s.pm.rows.attributes r).mark = true) ∧
        SameBut [.run, .play, .lanes, .events, .free] s t) ∧
    (s.run.seq = .tail →
      s.run.curRow.val + 1 < s.run.base.toNat + s.run.headLen.toNat + s.run.loopLen.toNat + s.run.tailLen.toNat →
      Completes .rowEnd s fun t => ∃ r : RowNum, r.val = s.run.curRow.val + 1 ∧
        t.run = { s.run with curRow := r } ∧ Latched s t r row.states ∧
        Raises s t (fun e => e = .mark ∧ (s.pm.rows.attributes r).mark = true) ∧
        SameBut [.run, .play, .lanes, .events, .free] s t) ∧
    (s.run.seq = .loop → s.run.passRows + 1 < s.run.loopLen.toNat →
      Completes .rowEnd s fun t => ∃ r : RowNum,
        r.val = s.run.base.toNat + s.run.headLen.toNat +
          (s.run.entryOffset.toNat + (s.run.passRows + 1)) % s.run.loopLen.toNat ∧
        t.run = { s.run with curRow := r, passRows := s.run.passRows + 1 } ∧ Latched s t r row.states ∧
        Raises s t (fun e => e = .mark ∧ (s.pm.rows.attributes r).mark = true) ∧
        SameBut [.run, .play, .lanes, .events, .free] s t)

/-- The end of the last head row (R87): with no stop pending, loop entry with its commit; with stop pending, the first tail row and
no commit, or with an empty tail the end of the run. The end of the last tail row ends the run normally, with DONE (R91).
For the cycles of the commit see log entry 8, for the keeper of a lane driven against the unit under test log entry 11. -/
def Obligations.LastHeadAndTailRowsEndTheirRegions : Prop :=
  ∀ (s : Machine.State) (row : LatchedRow), RowEnded s row → LayoutSound s.run →
    (s.run.seq = .head → s.run.base.toNat + s.run.headLen.toNat ≤ s.run.curRow.val + 1 →
      (s.run.stopMark = false → Completes .rowEnd s fun t => ∃ r : RowNum,
        r.val = s.run.base.toNat + s.run.headLen.toNat + s.run.entryOffset.toNat ∧
        t.run = { s.run with seq := .loop, passRows := 0, curRow := r } ∧ Committed s t ∧ Latched s t r row.states ∧
        Raises s t (commitOrMark s t r) ∧ SameBut [.pm, .queue, .run, .play, .lanes, .events, .free] s t) ∧
      (s.run.stopMark = true → 0 < s.run.tailLen.toNat → Completes .rowEnd s fun t => ∃ r : RowNum,
        r.val = s.run.base.toNat + s.run.headLen.toNat + s.run.loopLen.toNat ∧
        t.run = { s.run with seq := .tail, curRow := r } ∧ Latched s t r row.states ∧
        Raises s t (fun e => e = .mark ∧ (s.pm.rows.attributes r).mark = true) ∧
        SameBut [.run, .play, .lanes, .events, .free] s t) ∧
      (s.run.stopMark = true → s.run.tailLen.toNat = 0 → Completes .rowEnd s fun t =>
        RunEnded s t s.run ∧ Raises s t (fun e => e = .done) ∧
        SameBut [.timebase, .run, .play, .lanes, .events, .free] s t)) ∧
    (s.run.seq = .tail →
      s.run.base.toNat + s.run.headLen.toNat + s.run.loopLen.toNat + s.run.tailLen.toNat ≤ s.run.curRow.val + 1 →
      Completes .rowEnd s fun t =>
        RunEnded s t s.run ∧ t.runningPin = false ∧ Raises s t (fun e => e = .done) ∧
        SameBut [.timebase, .run, .play, .lanes, .events, .free] s t)

/-- A pass boundary (R88, R89): the count, PASSMARK and PASS, the pending offset, the commit, then the boundary test, which ends the
loop or begins the next pass at E as it then stands. For the cycles of the commit see log entry 8, for the keeper of a lane driven
against the unit under test log entry 11. -/
def Obligations.PassBoundaryTakesItsSteps : Prop :=
  ∀ (s : Machine.State) (row : LatchedRow), RowEnded s row → LayoutSound s.run → s.run.seq = .loop →
    s.run.loopLen.toNat ≤ s.run.passRows + 1 →
    let count := if s.run.passCount = 0xFFFF then s.run.passCount else s.run.passCount + 1
    let offset := s.run.pendingOffset.getD s.run.entryOffset
    let stepped := { s.run with
      passCount := count, passmarkCycles := 2, entryOffset := offset, pendingOffset := none }
    let ends := s.run.stopMark = true ∨ (s.run.targetInForce ≠ 0 ∧ count = s.run.targetInForce)
    (¬ends → Completes .rowEnd s fun t => ∃ r : RowNum,
      r.val = s.run.base.toNat + s.run.headLen.toNat + offset.toNat ∧
      t.run = { stepped with passRows := 0, curRow := r } ∧ Committed s t ∧ Latched s t r row.states ∧
      Raises s t (fun e => e = .pass ∨ commitOrMark s t r e) ∧
      SameBut [.pm, .queue, .run, .play, .lanes, .events, .free] s t) ∧
    (ends → 0 < s.run.tailLen.toNat → Completes .rowEnd s fun t => ∃ r : RowNum,
      r.val = s.run.base.toNat + s.run.headLen.toNat + s.run.loopLen.toNat ∧
      t.run = { stepped with seq := .tail, curRow := r } ∧ Committed s t ∧ Latched s t r row.states ∧
      Raises s t (fun e => e = .pass ∨ commitOrMark s t r e) ∧
      SameBut [.pm, .queue, .run, .play, .lanes, .events, .free] s t) ∧
    (ends → s.run.tailLen.toNat = 0 → Completes .rowEnd s fun t =>
      RunEnded s t stepped ∧ Committed s t ∧
      Raises s t (fun e => e = .pass ∨ e = .done ∨ (e = .commit ∧ s.queue.closed ≠ [])) ∧
      SameBut [.pm, .queue, .timebase, .run, .play, .lanes, .events, .free] s t)

/-! ### Row playback -/

/-- A tick in the DWELL phase that detects no fail (R109, R110, R115): the sample, the stamp, the count, and then the row end that
the count may bring (log entry 2). -/
def Obligations.DwellTickAdvancesTheRow : Prop :=
  ∀ (s : Machine.State) (row : LatchedRow), s.takesCycles = true → s.pm.commits = [] → s.play.latched = some row →
    s.play.phase = .dwell →
    row.wait = true ∨ s.play.tickInRow + 1 ≠ min s.play.strobe.toNat (row.dwellLess1.toNat + 1) ∨
      (∀ n, mismatching (sampled s) row n = false) →
    let t := { sampled s with play := { s.play with tickInRow := s.play.tickInRow + 1 } }
    exec .tick s = exec .rowEnd t ∧
    (s.play.tickInRow + 1 ≠ row.dwellLess1.toNat + 1 → exec .tick s = .next t)

/-- A mismatch at the strobe tick of a dwell row (R109, R110, R138, R139, R142, R145): the fail is handled with the record of R142,
and then the row end, if any, is taken (log entry 2); under HALT the row does not end, and the keeper of a lane held against the unit
under test stands at the part's level (log entry 11). -/
def Obligations.StrobeMismatchIsAFail : Prop :=
  ∀ (s : Machine.State) (row : LatchedRow) (region : Region), s.takesCycles = true → s.pm.commits = [] →
    s.play.latched = some row → s.play.phase = .dwell → row.wait = false → s.run.seq.region = some region →
    s.play.tickInRow + 1 = min s.play.strobe.toNat (row.dwellLess1.toNat + 1) →
    (∃ n, mismatching (sampled s) row n = true) →
    let u := { sampled s with play := { s.play with tickInRow := s.play.tickInRow + 1 } }
    ∃ t, FailHandled u t (recordOf u .compare region row.row (Lanes.ofFn fun n => mismatching (sampled s) row n)) ∧
      exec .tick s = exec .rowEnd t ∧ (s.compare.policy = .halt → exec .tick s = .next t)

/-- A tick in the WAITING phase (R112, R113): a match begins the dwell, a miss advances the wait count, and the miss that reaches the
limit times the wait out in the same event (log entry 2). -/
def Obligations.WaitTickChecksTheLanes : Prop :=
  ∀ (s : Machine.State) (row : LatchedRow), s.takesCycles = true → s.pm.commits = [] → s.run.seq.running = true →
    s.play.latched = some row → s.play.phase = .waiting →
    let missed := Lanes.ofFn fun n => mismatching (sampled s) row n
    let count := if s.play.waitCount = 0xFFFF then s.play.waitCount else s.play.waitCount + 1
    let unmatched := { sampled s with play := { s.play with waitCount := count, checkMismatch := missed } }
    ((∀ n, mismatching (sampled s) row n = false) → exec .tick s = .next { sampled s with
      play := { s.play with phase := .dwell, tickInRow := 0, checkMismatch := missed } }) ∧
    ((∃ n, mismatching (sampled s) row n = true) →
      (s.play.waitLimit = 0 ∨ count ≠ s.play.waitLimit → exec .tick s = .next unmatched) ∧
      (s.play.waitLimit ≠ 0 → count = s.play.waitLimit → exec .tick s = exec .waitTimeout unmatched))

/-- A wait that has timed out (R114, R141): a WAIT_TIMEOUT fail of the latched row with the lanes of the failed check; under CONTINUE
and STOP the row then counts its dwell, under HALT it stays as it is, and the keeper of a lane held against the unit under test stands
at the part's level (log entry 11). The command WAIT_TIMEOUT is log entry 2. -/
def Obligations.WaitTimeoutIsAFail : Prop :=
  ∀ (s : Machine.State) (row : LatchedRow) (region : Region), s.pins.resetLow = false → s.play.latched = some row →
    s.run.seq.region = some region → s.play.phase = .waiting → s.play.waitLimit ≠ 0 →
    s.play.waitCount = s.play.waitLimit → (∃ n, s.play.checkMismatch.get n = true) →
    ∃ t, FailHandled s t (recordOf s .waitTimeout region row.row s.play.checkMismatch) ∧
      (s.compare.policy = .halt → exec .waitTimeout s = .next t) ∧
      (s.compare.policy ≠ .halt →
        exec .waitTimeout s = .next { t with play := { s.play with phase := .dwell, tickInRow := 0 } })

/-- The ends of the MARK and PASSMARK pulses (R90, R108): the pins return low, and nothing else changes. -/
def Obligations.PulseEndsLowerTheirPins : Prop :=
  ∀ s : Machine.State,
    exec .markPulseEnd s = .next { s with play := { s.play with markCycles := 0 } } ∧
    exec .passmarkPulseEnd s = .next { s with run := { s.run with passmarkCycles := 0 } } ∧
    (s.pins.resetLow = false → (s.markPin = true ↔ s.play.markCycles ≠ 0) ∧ (s.passmarkPin = true ↔ s.run.passmarkCycles ≠ 0))

/-! ### Lanes -/

/-- A PARK write (R128): refused whole for a field of 3, otherwise stored, and in IDLE and ARMED applied to the eight lanes at once.
That the keeper of a lane parked against the unit under test takes the part's level is the model's reading (log entry 11). -/
def Obligations.ParkWriteParksInIdleAndArmed : Prop :=
  ∀ (s : Machine.State) (half : Half) (value : Word),
    let covered := fun n : Lane => if half = .a then n.val < 8 else 8 ≤ n.val
    let field := fun n : Lane => value.toNat / 4 ^ (n.val % 8) % 4
    let invalid := ∃ i, i < 8 ∧ value.toNat / 4 ^ i % 4 = 3
    (s.pins.resetLow = false → s.pm.sweep.isSome = true ∨ invalid →
      exec (.parkWrite half value) s = .next (s.raise .accErr)) ∧
    (∀ n, covered n → (s.regWord (if half = .a then 0x28 else 0x29)).toNat / 4 ^ (n.val % 8) % 4 =
      (match s.lanes.park.get n with | .release => 0 | .low => 1 | .high => 2)) ∧
    (Ready s → ¬invalid → Completes (.parkWrite half value) s fun t =>
      SameBut [.lanes, .free] s t ∧
      (∀ n, ¬covered n → t.lanes.park.get n = s.lanes.park.get n) ∧
      (∀ n, covered n →
        (field n = 0 → t.lanes.park.get n = .release) ∧ (field n = 1 → t.lanes.park.get n = .low) ∧
        (field n = 2 → t.lanes.park.get n = .high)) ∧
      t.lanes.effective = (Lanes.ofFn fun n =>
        if (s.run.seq = .idle ∨ s.run.seq = .armed) ∧ covered n then (t.lanes.park.get n).state
        else s.lanes.effective.get n) ∧
      t.lanes.term = s.lanes.term ∧ t.lanes.uut = s.lanes.uut ∧ t.lanes.active = s.lanes.active ∧
      t.lanes.sample = s.lanes.sample ∧ KeepersHold s.lanes t.lanes ∧ KeepersFollow t.lanes)

/-- A TERM write (R126): refused whole for a field of 3, otherwise the eight settings change at once and no effective state does.
A lane taken from its pull midway is left open (log entry 10); that the keeper of a lane driven against the unit under test stands
at the part's level is the model's reading (log entry 11). -/
def Obligations.TermWriteSetsTerminations : Prop :=
  ∀ (s : Machine.State) (half : Half) (value : Word),
    let covered := fun n : Lane => if half = .a then n.val < 8 else 8 ≤ n.val
    let field := fun n : Lane => value.toNat / 4 ^ (n.val % 8) % 4
    let invalid := ∃ i, i < 8 ∧ value.toNat / 4 ^ i % 4 = 3
    (s.pins.resetLow = false → s.pm.sweep.isSome = true ∨ invalid →
      exec (.termWrite half value) s = .next (s.raise .accErr)) ∧
    (∀ n, covered n → (s.regWord (if half = .a then 0x2A else 0x2B)).toNat / 4 ^ (n.val % 8) % 4 =
      (match s.lanes.term.get n with | .none => 0 | .pullUp => 1 | .pullDown => 2)) ∧
    (Ready s → ¬invalid → Completes (.termWrite half value) s fun t =>
      SameBut [.lanes, .free] s t ∧
      (∀ n, ¬covered n → t.lanes.term.get n = s.lanes.term.get n) ∧
      (∀ n, covered n →
        (field n = 0 → t.lanes.term.get n = .none) ∧ (field n = 1 → t.lanes.term.get n = .pullUp) ∧
        (field n = 2 → t.lanes.term.get n = .pullDown)) ∧
      t.lanes.effective = s.lanes.effective ∧ t.lanes.park = s.lanes.park ∧ t.lanes.uut = s.lanes.uut ∧
      t.lanes.active = s.lanes.active ∧ t.lanes.sample = s.lanes.sample ∧
      KeepersHold s.lanes t.lanes ∧ KeepersFollow t.lanes)

/-- What the unit under test and a termination do to a lane's pin (R127): the keeper takes the level driven, and a lane that its
termination was pulling takes the pulled level when it is reached (log entries 10 and 22). That under contention the keeper takes the
part's level is the model's choice (log entry 11). -/
def Obligations.KeepersFollowThePins : Prop :=
  ∀ (s : Machine.State) (n : Lane),
    (∀ drive, Completes (.uutLaneDriveChange n drive) s fun t =>
      t.lanes.uut = s.lanes.uut.set n drive ∧ t.lanes.effective = s.lanes.effective ∧ t.lanes.park = s.lanes.park ∧
      t.lanes.term = s.lanes.term ∧ t.lanes.active = s.lanes.active ∧ t.lanes.sample = s.lanes.sample ∧
      KeepersHold s.lanes t.lanes ∧ KeepersFollow t.lanes ∧ SameBut [.lanes, .free] s t) ∧
    (∀ level, s.lanes.pinLevel n = none → s.lanes.pull n = some level → Completes (.pulledLevelReached n) s fun t =>
      t = { s with lanes := { s.lanes with keeper := s.lanes.keeper.set n level } } ∧ t.lanes.pinLevel n = some level)

/-- Where each pin stands (R124, R127), and what the sampler, LANE_IN and LANE_DRIVE show of it (R132, R133): a driven lane at its
driver's level, an undriven one at the unit under test's, else at the pulled level or the keeper's. Nothing is said of a lane that is
still being pulled (log entry 10) or of LANE_IN under contention (log entry 11); a lane whose keeper stands at the pulled level is
there already (log entry 10). -/
def Obligations.PinsStandWhereTheyAreDriven : Prop :=
  ∀ (s : Machine.State) (n : Lane), s.lanes.active = true →
    let state := s.lanes.effective.get n
    let driven := state = .drivenLow ∨ state = .drivenHigh
    (s.laneDrive.get n = true ↔ driven) ∧
    (∀ b, (state = .drivenLow ∧ b = false) ∨ (state = .drivenHigh ∧ b = true) ∨
        (¬driven ∧ uutLevel (s.lanes.uut.get n) = some b) ∨
        (¬driven ∧ s.lanes.uut.get n = .silent ∧ s.lanes.keeper.get n = b ∧
          (s.lanes.term.get n = .none ∨ (s.lanes.term.get n = .pullUp ∧ b = true) ∨
            (s.lanes.term.get n = .pullDown ∧ b = false))) →
      s.lanes.pinLevel n = some b ∧ s.sampledLevels.get n = b ∧
      (¬(driven ∧ ∃ c, uutLevel (s.lanes.uut.get n) = some c ∧ c ≠ b) → s.laneIn.get n = b))

/-! ### The compare unit and the fail log -/

/-- The compare unit's commands, taken in every sequencer state: LOG POP (R150), LOG CLEAR (R151), and writes to COMPARE_MASK (R137)
and FAIL_POLICY (R146). -/
def Obligations.LogCommandsAndCompareRegisters : Prop :=
  ∀ s : Machine.State,
    (Ready s → s.compare.log = [] → exec .logPop s = .next (s.report .empty)) ∧
    (∀ r rest, Ready s → s.compare.log = r :: rest →
      exec .logPop s = .next ({ s with compare := { s.compare with log := rest } }.report .accepted)) ∧
    (Ready s → exec .logClear s =
      .next ({ s with compare := { s.compare with log := [], overflow := 0 } }.report .accepted)) ∧
    (∀ value : Word, Ready s →
      exec (.compareMaskWrite value) s = .next { s with compare := { s.compare with mask := value } } ∧
      (value.toNat % 4 = 0 →
        exec (.failPolicyWrite value) s = .next { s with compare := { s.compare with policy := .continue } }) ∧
      (value.toNat % 4 = 1 →
        exec (.failPolicyWrite value) s = .next { s with compare := { s.compare with policy := .stop } }) ∧
      (value.toNat % 4 = 2 →
        exec (.failPolicyWrite value) s = .next { s with compare := { s.compare with policy := .halt } }) ∧
      (value.toNat % 4 = 3 → exec (.failPolicyWrite value) s = .next (s.raise .accErr))) ∧
    (s.pins.resetLow = false → s.pm.sweep.isSome = true →
      exec .logPop s = .next (s.report .refusedBusy) ∧ exec .logClear s = .next (s.report .refusedBusy) ∧
      ∀ value, exec (.compareMaskWrite value) s = .next (s.raise .accErr) ∧
        exec (.failPolicyWrite value) s = .next (s.raise .accErr)) ∧
    s.regWord 0x2C = s.compare.mask ∧ (s.regWord 0x39).toNat =
      (match s.compare.policy with | .continue => 0 | .stop => 1 | .halt => 2)

/-! ### Events -/

/-- Writes to EVENTS (R158) and EVENT_ENABLE (R161), and the level of IRQ_N (R162). -/
def Obligations.EventWritesAndTheInterruptPin : Prop :=
  ∀ (s : Machine.State) (value : Word),
    (s.pins.resetLow = false → Completes (.eventsWrite value) s fun t =>
      (∀ e : Event, t.events.isSet e = true ↔ s.events.isSet e = true ∧ value.getLsbD e.bit = false) ∧
      t.events.enables = s.events.enables ∧ SameBut [.events] s t) ∧
    (Ready s → exec (.eventEnableWrite value) s = .next { s with events := { s.events with enables := value } }) ∧
    (s.pins.resetLow = false → s.pm.sweep.isSome = true →
      exec (.eventEnableWrite value) s = .next (s.raise .accErr)) ∧
    (s.irqLow = true ↔ s.pins.resetLow = false ∧
      ∃ e : Event, s.events.isSet e = true ∧ s.events.enables.getLsbD e.bit = true)

/-! ### The host bus -/

/-- Every COMMAND write advances the serial by 1, from 15 to 0 (R169), and a code outside the table of R168 gives UNKNOWN and changes
nothing else (log entry 18). -/
def Obligations.EveryCommandWriteIsReported : Prop :=
  ∀ s : Machine.State,
    (s.pins.resetLow = false → ∀ c, c.request = .command → Completes c s fun t => t.bus.serial = s.bus.serial + 1) ∧
    (∀ code : Word, Ready s →
      code.toNat ∉ [0x01, 0x02, 0x03, 0x04, 0x10, 0x11, 0x12, 0x13, 0x20, 0x21, 0x22, 0x23, 0x30, 0x31, 0x5A] →
      exec (.unknownCommand code) s = .next (s.report .unknown)) ∧
    (∀ o : CmdOutcome, (s.report o).bus = { s.bus with outcome := o, serial := s.bus.serial + 1 } ∧
      SameBut [.bus] s (s.report o))

/-- A write cycle is the row that the register map gives its address (R166, R167); at a read-only register or an unmapped address it
is ignored without event. An unmapped address and COMMAND read 0x0000, and with RESET_N high every read is answered (log entries 17
and 18). Then the edges of the bus lines (R165; log entry 29 for their sample in a step on an empty queue): with the strobes as the
part last saw them nothing is taken and a drive goes on; a rise of WR_N alone with CS_N low is a write of the data at the address on the
lines; a fall of CS_N, of RD_N, or of both that leaves them low with WR_N high is a read, whose word the part then drives; any other
edge takes no cycle; and every edge stops the drive. -/
def Obligations.WriteCycleGoesThroughTheMap : Prop :=
  ∀ (s : Machine.State) (addr : Addr) (value : Word),
    (∀ c, registerRow addr value = some c → exec (.registerWrite addr value) s = exec c s) ∧
    (registerRow addr value = none → exec (.registerWrite addr value) s = .next s) ∧
    (addr.toNat ∈ [0x03, 0x07, 0x12, 0x13, 0x1D, 0x1E, 0x1F, 0x25, 0x26, 0x27, 0x2F, 0x3A, 0x3B, 0x3C, 0x3D, 0x3E, 0x3F] →
      s.regWord addr = 0) ∧
    (s.pins.resetLow = false → s.readReg addr = some (s.regWord addr)) ∧
    (s.pending = [] → s.pins.resetLow = false →
      let was := s.bus.seen
      let now := s.pins.lines.strobes
      let u := atEdge s
      (now = was → step s = .next s.clockBlocks) ∧
      (was.csLow = true → was.wrLow = true → now = { was with wrLow := false } →
        step s = exec (.registerWrite s.pins.lines.addr s.pins.lines.data) u) ∧
      (now = ⟨true, true, false⟩ → was.wrLow = false → was ≠ now →
        (s.pins.lines.addr ≠ 0x0E →
          step s = .next { u with bus := { u.bus with driven := some (u.regWord s.pins.lines.addr) } }) ∧
        (s.pins.lines.addr = 0x0E → ∃ t, exec .dataRead u = .next t ∧
          step s = .next { t with bus := { t.bus with driven := t.bus.readWord } })) ∧
      ((now = { was with wrLow := false } ∧ was.wrLow = true ∧ was.csLow = false) ∨
          (now = { was with wrLow := true } ∧ was.wrLow = false) ∨
          (now = { was with csLow := false } ∧ was.csLow = true) ∨ (now = { was with rdLow := false } ∧ was.rdLow = true) ∨
          (now = { was with csLow := true } ∧ was.csLow = false ∧ (was.rdLow = false ∨ was.wrLow = true)) ∨
          (now = { was with rdLow := true } ∧ was.rdLow = false ∧ (was.csLow = false ∨ was.wrLow = true)) →
        step s = .next u))

/-- The words that show status, field by field: STATUS (R171), OUTCOME (R169), QUEUE_STATUS and QUEUE_OPEN (R172), the flags and their
enables (R158), the pins (R133), the cursor (R19), PASS_COUNT and CUR_ROW (R100), TRIG polarity (R174), the counts of the log and its
oldest record (R149, R175). -/
def Obligations.StatusWordsShowTheirFields : Prop :=
  ∀ s : Machine.State,
    (s.regWord 0x02).toNat =
      (match s.run.seq with | .idle => 0 | .armed => 1 | .head => 2 | .loop => 3 | .tail => 4 | .halted => 5) +
      (if s.play.phase = .waiting then 8 else 0) + (if s.run.stopMark then 16 else 0) +
      (if s.run.pendingOffset.isSome then 32 else 0) + (if s.pm.sweep.isSome then 64 else 0) +
      (if s.pm.fill.isSome then 128 else 0) ∧
    (s.regWord 0x04).toNat = s.bus.serial.toNat * 16 +
      (match s.bus.outcome with
       | .accepted => 0 | .refusedState => 1 | .refusedBusy => 2 | .refusedLayout => 3 | .refusedWindow => 4 | .empty => 5
       | .dropped => 6 | .unknown => 7) ∧
    (QueueSound s.queue →
      (s.regWord 0x10).toNat = s.queue.held + s.queue.closed.length * 128 + (if s.queue.openBatch.isSome then 16384 else 0) +
        (match s.queue.openBatch with | some b => if b.damaged then 32768 else 0 | none => 0) ∧
      (s.regWord 0x11).toNat =
        (match s.queue.openBatch with
         | some b => b.number.toNat + b.entries.length * 256
         | none => s.queue.next.toNat)) ∧
    s.regWord 0x05 = s.events.flags ∧ s.regWord 0x06 = s.events.enables ∧
    (s.regWord 0x0C).toNat = s.window.cursor.row.val ∧ (s.regWord 0x0D).toNat = s.window.cursor.lane.val ∧
    s.regWord 0x1A = s.run.passCount ∧ (s.regWord 0x1B).toNat = s.run.curRow.val ∧
    (s.regWord 0x1C).toNat = (if s.run.fallingTrig then 1 else 0) ∧
    (∀ n : Lane, (s.regWord 0x2D).getLsbD n.val = s.laneIn.get n ∧ (s.regWord 0x2E).getLsbD n.val = s.laneDrive.get n) ∧
    (s.compare.log.length ≤ 32 → (s.regWord 0x30).toNat = s.compare.log.length) ∧ s.regWord 0x31 = s.compare.overflow ∧
    (s.compare.log = [] → ∀ addr : Addr, 0x32 ≤ addr.toNat → addr.toNat ≤ 0x38 → s.regWord addr = 0) ∧
    (∀ r rest, s.compare.log = r :: rest →
      (s.regWord 0x32).toNat =
        (match r.kind with | .compare => 0 | .waitTimeout => 1) +
        (match r.region with | .head => 2 | .loop => 4 | .tail => 6) + (if r.pass.isSome then 8 else 0) ∧
      (s.regWord 0x33).toNat = r.row.val ∧
      s.regWord 0x34 = (match r.pass with | some p => p | none => 0) ∧
      (∀ n : Lane, (s.regWord 0x35).getLsbD n.val = r.failing.get n ∧ (s.regWord 0x36).getLsbD n.val = r.levels.get n) ∧
      (s.regWord 0x37).toNat = r.stamp.toNat / 65536 ∧ (s.regWord 0x38).toNat = r.stamp.toNat % 65536)

/-! ### Events without a cause, and the invariant -/

/-- An event of the part whose cause is absent does nothing (log entries 2 and 3). A fill row write has no cause while PM carries out
a commit application (R4, R16; log entry 7). -/
def Obligations.EventsWithoutACauseDoNothing : Prop :=
  ∀ s : Machine.State,
    (s.pm.sweep = none → exec .sweepRowWrite s = .next s) ∧
    (s.pm.fill = none ∨ s.pm.commits ≠ [] → exec .fillRowWrite s = .next s) ∧
    (s.pm.commits = [] → exec .commitApplicationEnd s = .next s) ∧
    ((∀ row, ¬RowEnded s row) → exec .rowEnd s = .next s) ∧
    (s.play.phase = .dwell ∨ s.play.waitLimit = 0 ∨ s.play.waitCount ≠ s.play.waitLimit → exec .waitTimeout s = .next s) ∧
    (∀ n, s.lanes.pinLevel n ≠ none ∨ s.lanes.pull n = none → exec (.pulledLevelReached n) s = .next s)

/-- The state after reset meets the invariant (for the fields that the manual gives no reset value, log entries 4, 12 and 13). -/
def Obligations.ResetMeetsTheInvariant : Prop := Inv State.reset

/-- Every step keeps the invariant: the locked layout and the pending offset (R77), the pass target (R89), the current row in its
region (R86), the parked lanes (R129), the order of the log (R143), the queue's bounds (R40, R42), the data lines driven only with the
strobes of a read (R165; log entry 29), the keepers at their pins (R124, R127; log entry 11), the canonical form of PM and the rest of
`Inv`, from every state that meets it and not only along runs from reset. -/
def Obligations.EveryStepKeepsTheInvariant : Prop :=
  ∀ s t : Machine.State, Inv s → step s = .next t → Inv t
end

