-- ==== Sys2Proof/Laws/State.lean ====
section
/-! SUPPORT. The frame of each shared operation, once: the parts of State it leaves as they were. Each lemma is a simp rule for every
part it names, so that no later proof unfolds an operation to read a part it does not touch. -/

namespace Sys2Proof.Machine

@[simp] theorem State.raise_frame (s : State) (e : Event) :
    (s.raise e).pm = s.pm ∧ (s.raise e).window = s.window ∧ (s.raise e).queue = s.queue ∧
    (s.raise e).timebase = s.timebase ∧ (s.raise e).run = s.run ∧ (s.raise e).play = s.play ∧ (s.raise e).lanes = s.lanes ∧
    (s.raise e).compare = s.compare ∧ (s.raise e).bus = s.bus ∧ (s.raise e).pins = s.pins ∧ (s.raise e).free = s.free ∧
    (s.raise e).pending = s.pending := by
  simp [State.raise]

@[simp] theorem State.raiseIf_frame (s : State) (c : Bool) (e : Event) :
    (s.raiseIf c e).pm = s.pm ∧ (s.raiseIf c e).window = s.window ∧ (s.raiseIf c e).queue = s.queue ∧
    (s.raiseIf c e).timebase = s.timebase ∧ (s.raiseIf c e).run = s.run ∧ (s.raiseIf c e).play = s.play ∧
    (s.raiseIf c e).lanes = s.lanes ∧ (s.raiseIf c e).compare = s.compare ∧ (s.raiseIf c e).bus = s.bus ∧
    (s.raiseIf c e).pins = s.pins ∧ (s.raiseIf c e).free = s.free ∧ (s.raiseIf c e).pending = s.pending := by
  cases c <;> simp [State.raiseIf]

@[simp] theorem State.report_frame (s : State) (o : CmdOutcome) :
    (s.report o).pm = s.pm ∧ (s.report o).window = s.window ∧ (s.report o).queue = s.queue ∧
    (s.report o).timebase = s.timebase ∧ (s.report o).run = s.run ∧ (s.report o).play = s.play ∧
    (s.report o).lanes = s.lanes ∧ (s.report o).compare = s.compare ∧ (s.report o).events = s.events ∧
    (s.report o).pins = s.pins ∧ (s.report o).free = s.free ∧ (s.report o).pending = s.pending := by
  simp [State.report]

@[simp] theorem State.answerRead_frame (s : State) (w : Word) :
    (s.answerRead w).pm = s.pm ∧ (s.answerRead w).window = s.window ∧ (s.answerRead w).queue = s.queue ∧
    (s.answerRead w).timebase = s.timebase ∧ (s.answerRead w).run = s.run ∧ (s.answerRead w).play = s.play ∧ (s.answerRead w).lanes = s.lanes ∧
    (s.answerRead w).compare = s.compare ∧ (s.answerRead w).events = s.events ∧ (s.answerRead w).pins = s.pins ∧
    (s.answerRead w).free = s.free ∧ (s.answerRead w).pending = s.pending := by
  simp [State.answerRead]

@[simp] theorem State.setLanes_frame (s : State) (f : LaneUnit → LaneUnit) :
    (s.setLanes f).pm = s.pm ∧ (s.setLanes f).window = s.window ∧ (s.setLanes f).queue = s.queue ∧
    (s.setLanes f).timebase = s.timebase ∧ (s.setLanes f).run = s.run ∧ (s.setLanes f).play = s.play ∧
    (s.setLanes f).compare = s.compare ∧ (s.setLanes f).events = s.events ∧ (s.setLanes f).bus = s.bus ∧
    (s.setLanes f).pins = s.pins ∧ (s.setLanes f).pending = s.pending := by
  simp [State.setLanes]

@[simp] theorem State.parkLanes_frame (s : State) :
    (s.parkLanes).pm = s.pm ∧ (s.parkLanes).window = s.window ∧ (s.parkLanes).queue = s.queue ∧
    (s.parkLanes).timebase = s.timebase ∧ (s.parkLanes).run = s.run ∧ (s.parkLanes).play = s.play ∧
    (s.parkLanes).compare = s.compare ∧ (s.parkLanes).events = s.events ∧ (s.parkLanes).bus = s.bus ∧
    (s.parkLanes).pins = s.pins ∧ (s.parkLanes).pending = s.pending := by
  simp [State.parkLanes]

@[simp] theorem State.holdLanes_frame (s : State) :
    (s.holdLanes).pm = s.pm ∧ (s.holdLanes).window = s.window ∧ (s.holdLanes).queue = s.queue ∧
    (s.holdLanes).timebase = s.timebase ∧ (s.holdLanes).run = s.run ∧ (s.holdLanes).play = s.play ∧
    (s.holdLanes).compare = s.compare ∧ (s.holdLanes).events = s.events ∧ (s.holdLanes).bus = s.bus ∧
    (s.holdLanes).pins = s.pins ∧ (s.holdLanes).pending = s.pending := by
  simp [State.holdLanes]

@[simp] theorem State.latchLanes_frame (s : State) (v : Lanes LaneState) :
    (s.latchLanes v).pm = s.pm ∧ (s.latchLanes v).window = s.window ∧ (s.latchLanes v).queue = s.queue ∧
    (s.latchLanes v).timebase = s.timebase ∧ (s.latchLanes v).run = s.run ∧ (s.latchLanes v).play = s.play ∧
    (s.latchLanes v).compare = s.compare ∧ (s.latchLanes v).events = s.events ∧ (s.latchLanes v).bus = s.bus ∧
    (s.latchLanes v).pins = s.pins ∧ (s.latchLanes v).pending = s.pending := by
  simp [State.latchLanes]

@[simp] theorem State.takeSample_frame (s : State) :
    (s.takeSample).pm = s.pm ∧ (s.takeSample).window = s.window ∧ (s.takeSample).queue = s.queue ∧
    (s.takeSample).timebase = s.timebase ∧ (s.takeSample).run = s.run ∧ (s.takeSample).play = s.play ∧
    (s.takeSample).compare = s.compare ∧ (s.takeSample).events = s.events ∧ (s.takeSample).bus = s.bus ∧
    (s.takeSample).pins = s.pins ∧ (s.takeSample).pending = s.pending := by
  simp [State.takeSample]

@[simp] theorem State.startTimebase_frame (s : State) :
    (s.startTimebase).pm = s.pm ∧ (s.startTimebase).window = s.window ∧ (s.startTimebase).queue = s.queue ∧
    (s.startTimebase).run = s.run ∧ (s.startTimebase).play = s.play ∧ (s.startTimebase).lanes = s.lanes ∧
    (s.startTimebase).compare = s.compare ∧ (s.startTimebase).events = s.events ∧ (s.startTimebase).bus = s.bus ∧
    (s.startTimebase).pins = s.pins ∧ (s.startTimebase).free = s.free ∧ (s.startTimebase).pending = s.pending := by
  simp [State.startTimebase]

@[simp] theorem State.stopTimebase_frame (s : State) :
    (s.stopTimebase).pm = s.pm ∧ (s.stopTimebase).window = s.window ∧ (s.stopTimebase).queue = s.queue ∧
    (s.stopTimebase).run = s.run ∧ (s.stopTimebase).play = s.play ∧ (s.stopTimebase).lanes = s.lanes ∧
    (s.stopTimebase).compare = s.compare ∧ (s.stopTimebase).events = s.events ∧ (s.stopTimebase).bus = s.bus ∧
    (s.stopTimebase).pins = s.pins ∧ (s.stopTimebase).free = s.free ∧ (s.stopTimebase).pending = s.pending := by
  simp [State.stopTimebase]

@[simp] theorem State.clearLog_frame (s : State) :
    (s.clearLog).pm = s.pm ∧ (s.clearLog).window = s.window ∧ (s.clearLog).queue = s.queue ∧
    (s.clearLog).timebase = s.timebase ∧ (s.clearLog).run = s.run ∧ (s.clearLog).play = s.play ∧
    (s.clearLog).lanes = s.lanes ∧ (s.clearLog).events = s.events ∧ (s.clearLog).bus = s.bus ∧ (s.clearLog).pins = s.pins ∧
    (s.clearLog).free = s.free ∧ (s.clearLog).pending = s.pending := by
  simp [State.clearLog]

@[simp] theorem State.enter_frame (s : State) (q : SeqState) :
    (s.enter q).pm = s.pm ∧ (s.enter q).window = s.window ∧ (s.enter q).queue = s.queue ∧
    (s.enter q).timebase = s.timebase ∧ (s.enter q).play = s.play ∧ (s.enter q).lanes = s.lanes ∧
    (s.enter q).compare = s.compare ∧ (s.enter q).events = s.events ∧ (s.enter q).bus = s.bus ∧ (s.enter q).pins = s.pins ∧
    (s.enter q).free = s.free ∧ (s.enter q).pending = s.pending := by
  simp [State.enter]

@[simp] theorem State.discardRow_frame (s : State) :
    (s.discardRow).pm = s.pm ∧ (s.discardRow).window = s.window ∧ (s.discardRow).queue = s.queue ∧
    (s.discardRow).timebase = s.timebase ∧ (s.discardRow).run = s.run ∧ (s.discardRow).lanes = s.lanes ∧
    (s.discardRow).compare = s.compare ∧ (s.discardRow).events = s.events ∧ (s.discardRow).bus = s.bus ∧
    (s.discardRow).pins = s.pins ∧ (s.discardRow).free = s.free ∧ (s.discardRow).pending = s.pending := by
  simp [State.discardRow]

@[simp] theorem State.beginDwell_frame (s : State) :
    (s.beginDwell).pm = s.pm ∧ (s.beginDwell).window = s.window ∧ (s.beginDwell).queue = s.queue ∧
    (s.beginDwell).timebase = s.timebase ∧ (s.beginDwell).run = s.run ∧ (s.beginDwell).lanes = s.lanes ∧
    (s.beginDwell).compare = s.compare ∧ (s.beginDwell).events = s.events ∧ (s.beginDwell).bus = s.bus ∧
    (s.beginDwell).pins = s.pins ∧ (s.beginDwell).free = s.free ∧ (s.beginDwell).pending = s.pending := by
  simp [State.beginDwell]

@[simp] theorem State.pulseMark_frame (s : State) :
    (s.pulseMark).pm = s.pm ∧ (s.pulseMark).window = s.window ∧ (s.pulseMark).queue = s.queue ∧
    (s.pulseMark).timebase = s.timebase ∧ (s.pulseMark).run = s.run ∧ (s.pulseMark).lanes = s.lanes ∧
    (s.pulseMark).compare = s.compare ∧ (s.pulseMark).bus = s.bus ∧ (s.pulseMark).pins = s.pins ∧
    (s.pulseMark).free = s.free ∧ (s.pulseMark).pending = s.pending := by
  simp [State.pulseMark]

@[simp] theorem State.commitPoint_frame (s : State) :
    (s.commitPoint).window = s.window ∧ (s.commitPoint).timebase = s.timebase ∧ (s.commitPoint).run = s.run ∧
    (s.commitPoint).play = s.play ∧ (s.commitPoint).lanes = s.lanes ∧ (s.commitPoint).compare = s.compare ∧
    (s.commitPoint).bus = s.bus ∧ (s.commitPoint).pins = s.pins ∧ (s.commitPoint).free = s.free ∧
    (s.commitPoint).pending = s.pending ∧ (s.commitPoint).pm.sweep = s.pm.sweep ∧ (s.commitPoint).pm.fill = s.pm.fill := by
  unfold State.commitPoint; split <;> simp

@[simp] theorem State.latchRow_frame (s : State) (r : RowNum) (v : Lanes LaneState) :
    (s.latchRow r v).pm = s.pm ∧ (s.latchRow r v).window = s.window ∧ (s.latchRow r v).queue = s.queue ∧
    (s.latchRow r v).timebase = s.timebase ∧ (s.latchRow r v).compare = s.compare ∧ (s.latchRow r v).bus = s.bus ∧
    (s.latchRow r v).pins = s.pins ∧ (s.latchRow r v).pending = s.pending := by
  unfold State.latchRow; dsimp only; split <;> simp

@[simp] theorem State.latchNext_frame (s : State) (n : Nat) :
    (s.latchNext n).pm = s.pm ∧ (s.latchNext n).window = s.window ∧ (s.latchNext n).queue = s.queue ∧
    (s.latchNext n).timebase = s.timebase ∧ (s.latchNext n).compare = s.compare ∧ (s.latchNext n).bus = s.bus ∧
    (s.latchNext n).pins = s.pins ∧ (s.latchNext n).pending = s.pending := by
  simp [State.latchNext]

@[simp] theorem State.stopRequest_frame (s : State) :
    (s.stopRequest).pm = s.pm ∧ (s.stopRequest).window = s.window ∧ (s.stopRequest).queue = s.queue ∧
    (s.stopRequest).timebase = s.timebase ∧ (s.stopRequest).play = s.play ∧ (s.stopRequest).lanes = s.lanes ∧
    (s.stopRequest).compare = s.compare ∧ (s.stopRequest).events = s.events ∧ (s.stopRequest).bus = s.bus ∧
    (s.stopRequest).pins = s.pins ∧ (s.stopRequest).free = s.free ∧ (s.stopRequest).pending = s.pending := by
  unfold State.stopRequest; split <;> simp

@[simp] theorem State.prepareRun_frame (s : State) :
    (s.prepareRun).window = s.window ∧ (s.prepareRun).play = s.play ∧ (s.prepareRun).lanes = s.lanes ∧
    (s.prepareRun).bus = s.bus ∧ (s.prepareRun).pins = s.pins ∧ (s.prepareRun).free = s.free ∧
    (s.prepareRun).pending = s.pending ∧ (s.prepareRun).pm.sweep = s.pm.sweep ∧ (s.prepareRun).pm.fill = s.pm.fill := by
  simp [State.prepareRun]

@[simp] theorem State.runStart_frame (s : State) :
    (s.runStart).window = s.window ∧ (s.runStart).bus = s.bus ∧ (s.runStart).pins = s.pins ∧
    (s.runStart).pending = s.pending ∧ (s.runStart).pm.sweep = s.pm.sweep ∧ (s.runStart).pm.fill = s.pm.fill := by
  unfold State.runStart; dsimp only; split <;> simp

@[simp] theorem State.toIdle_frame (s : State) :
    (s.toIdle).pm = s.pm ∧ (s.toIdle).window = s.window ∧ (s.toIdle).queue = s.queue ∧ (s.toIdle).compare = s.compare ∧
    (s.toIdle).events = s.events ∧ (s.toIdle).bus = s.bus ∧ (s.toIdle).pins = s.pins ∧ (s.toIdle).pending = s.pending := by
  simp [State.toIdle]

@[simp] theorem State.endRun_frame (s : State) :
    (s.endRun).pm = s.pm ∧ (s.endRun).window = s.window ∧ (s.endRun).queue = s.queue ∧ (s.endRun).compare = s.compare ∧
    (s.endRun).bus = s.bus ∧ (s.endRun).pins = s.pins ∧ (s.endRun).pending = s.pending := by
  simp [State.endRun]

@[simp] theorem State.haltRun_frame (s : State) :
    (s.haltRun).pm = s.pm ∧ (s.haltRun).window = s.window ∧ (s.haltRun).queue = s.queue ∧ (s.haltRun).play = s.play ∧
    (s.haltRun).compare = s.compare ∧ (s.haltRun).bus = s.bus ∧ (s.haltRun).pins = s.pins ∧
    (s.haltRun).pending = s.pending := by
  simp [State.haltRun]

@[simp] theorem State.enterTail_frame (s : State) :
    (s.enterTail).pm = s.pm ∧ (s.enterTail).window = s.window ∧ (s.enterTail).queue = s.queue ∧
    (s.enterTail).compare = s.compare ∧ (s.enterTail).bus = s.bus ∧ (s.enterTail).pins = s.pins ∧
    (s.enterTail).pending = s.pending := by
  unfold State.enterTail; split <;> simp

@[simp] theorem State.beginPass_frame (s : State) :
    (s.beginPass).pm = s.pm ∧ (s.beginPass).window = s.window ∧ (s.beginPass).queue = s.queue ∧
    (s.beginPass).timebase = s.timebase ∧ (s.beginPass).compare = s.compare ∧ (s.beginPass).bus = s.bus ∧
    (s.beginPass).pins = s.pins ∧ (s.beginPass).pending = s.pending := by
  simp [State.beginPass]

@[simp] theorem State.headEnd_frame (s : State) :
    (s.headEnd).window = s.window ∧ (s.headEnd).compare = s.compare ∧ (s.headEnd).bus = s.bus ∧ (s.headEnd).pins = s.pins ∧
    (s.headEnd).pending = s.pending ∧ (s.headEnd).pm.sweep = s.pm.sweep ∧ (s.headEnd).pm.fill = s.pm.fill := by
  unfold State.headEnd; split <;> simp

@[simp] theorem State.boundary_frame (s : State) :
    (s.boundary).window = s.window ∧ (s.boundary).timebase = s.timebase ∧ (s.boundary).play = s.play ∧
    (s.boundary).lanes = s.lanes ∧ (s.boundary).compare = s.compare ∧ (s.boundary).bus = s.bus ∧
    (s.boundary).pins = s.pins ∧ (s.boundary).free = s.free ∧ (s.boundary).pending = s.pending ∧
    (s.boundary).pm.sweep = s.pm.sweep ∧ (s.boundary).pm.fill = s.pm.fill := by
  simp [State.boundary]

@[simp] theorem State.passBoundary_frame (s : State) :
    (s.passBoundary).window = s.window ∧ (s.passBoundary).compare = s.compare ∧ (s.passBoundary).bus = s.bus ∧
    (s.passBoundary).pins = s.pins ∧ (s.passBoundary).pending = s.pending ∧ (s.passBoundary).pm.sweep = s.pm.sweep ∧
    (s.passBoundary).pm.fill = s.pm.fill := by
  unfold State.passBoundary; dsimp only; split <;> simp

@[simp] theorem State.answerRowEnd_frame (s : State) :
    (s.answerRowEnd).window = s.window ∧ (s.answerRowEnd).compare = s.compare ∧ (s.answerRowEnd).bus = s.bus ∧
    (s.answerRowEnd).pins = s.pins ∧ (s.answerRowEnd).pending = s.pending ∧ (s.answerRowEnd).pm.sweep = s.pm.sweep ∧
    (s.answerRowEnd).pm.fill = s.pm.fill := by
  unfold State.answerRowEnd; split <;> (try split) <;> simp

@[simp] theorem State.endRow_frame (s : State) :
    (s.endRow).window = s.window ∧ (s.endRow).compare = s.compare ∧ (s.endRow).bus = s.bus ∧ (s.endRow).pins = s.pins ∧
    (s.endRow).pending = s.pending ∧ (s.endRow).pm.sweep = s.pm.sweep ∧ (s.endRow).pm.fill = s.pm.fill := by
  unfold State.endRow; split <;> simp

@[simp] theorem State.logFail_frame (s : State) (r : FailRecord) :
    (s.logFail r).pm = s.pm ∧ (s.logFail r).window = s.window ∧ (s.logFail r).queue = s.queue ∧
    (s.logFail r).timebase = s.timebase ∧ (s.logFail r).run = s.run ∧ (s.logFail r).play = s.play ∧
    (s.logFail r).lanes = s.lanes ∧ (s.logFail r).bus = s.bus ∧ (s.logFail r).pins = s.pins ∧ (s.logFail r).free = s.free ∧
    (s.logFail r).pending = s.pending := by
  unfold State.logFail; split <;> simp

@[simp] theorem State.applyPolicy_frame (s : State) :
    (s.applyPolicy).pm = s.pm ∧ (s.applyPolicy).window = s.window ∧ (s.applyPolicy).queue = s.queue ∧
    (s.applyPolicy).play = s.play ∧ (s.applyPolicy).compare = s.compare ∧ (s.applyPolicy).bus = s.bus ∧
    (s.applyPolicy).pins = s.pins ∧ (s.applyPolicy).pending = s.pending := by
  unfold State.applyPolicy; split <;> simp

@[simp] theorem State.detectFail_frame (s : State) (k : FailKind) (r : RowNum) (v : Lanes Bool) :
    (s.detectFail k r v).pm = s.pm ∧ (s.detectFail k r v).window = s.window ∧ (s.detectFail k r v).queue = s.queue ∧
    (s.detectFail k r v).play = s.play ∧ (s.detectFail k r v).bus = s.bus ∧ (s.detectFail k r v).pins = s.pins ∧
    (s.detectFail k r v).pending = s.pending := by
  unfold State.detectFail; split <;> simp

@[simp] theorem State.strobeCompare_frame (s : State) (r : LatchedRow) :
    (s.strobeCompare r).pm = s.pm ∧ (s.strobeCompare r).window = s.window ∧ (s.strobeCompare r).queue = s.queue ∧
    (s.strobeCompare r).play = s.play ∧ (s.strobeCompare r).bus = s.bus ∧ (s.strobeCompare r).pins = s.pins ∧
    (s.strobeCompare r).pending = s.pending := by
  unfold State.strobeCompare; split <;> simp

@[simp] theorem State.dwellTick_frame (s : State) (r : LatchedRow) :
    (s.dwellTick r).pm = s.pm ∧ (s.dwellTick r).window = s.window ∧ (s.dwellTick r).queue = s.queue ∧
    (s.dwellTick r).bus = s.bus ∧ (s.dwellTick r).pins = s.pins ∧ (s.dwellTick r).pending = s.pending := by
  unfold State.dwellTick; dsimp only; split <;> simp

@[simp] theorem State.waitCheck_frame (s : State) (r : LatchedRow) :
    (s.waitCheck r).pm = s.pm ∧ (s.waitCheck r).window = s.window ∧ (s.waitCheck r).queue = s.queue ∧
    (s.waitCheck r).timebase = s.timebase ∧ (s.waitCheck r).run = s.run ∧ (s.waitCheck r).lanes = s.lanes ∧
    (s.waitCheck r).compare = s.compare ∧ (s.waitCheck r).events = s.events ∧ (s.waitCheck r).bus = s.bus ∧
    (s.waitCheck r).pins = s.pins ∧ (s.waitCheck r).free = s.free ∧ (s.waitCheck r).pending = s.pending := by
  unfold State.waitCheck; dsimp only; split <;> simp

@[simp] theorem State.playTick_frame (s : State) :
    (s.playTick).pm = s.pm ∧ (s.playTick).window = s.window ∧ (s.playTick).queue = s.queue ∧ (s.playTick).bus = s.bus ∧
    (s.playTick).pins = s.pins ∧ (s.playTick).pending = s.pending := by
  unfold State.playTick; split <;> (try split) <;> simp

@[simp] theorem State.afterTimeout_frame (s : State) :
    (s.afterTimeout).pm = s.pm ∧ (s.afterTimeout).window = s.window ∧ (s.afterTimeout).queue = s.queue ∧
    (s.afterTimeout).timebase = s.timebase ∧ (s.afterTimeout).run = s.run ∧ (s.afterTimeout).lanes = s.lanes ∧
    (s.afterTimeout).compare = s.compare ∧ (s.afterTimeout).events = s.events ∧ (s.afterTimeout).bus = s.bus ∧
    (s.afterTimeout).pins = s.pins ∧ (s.afterTimeout).free = s.free ∧ (s.afterTimeout).pending = s.pending := by
  unfold State.afterTimeout; split <;> simp

@[simp] theorem State.timeOut_frame (s : State) :
    (s.timeOut).pm = s.pm ∧ (s.timeOut).window = s.window ∧ (s.timeOut).queue = s.queue ∧ (s.timeOut).bus = s.bus ∧
    (s.timeOut).pins = s.pins ∧ (s.timeOut).pending = s.pending := by
  unfold State.timeOut; split <;> (try split) <;> simp

@[simp] theorem State.tickFront_frame (s : State) :
    (s.tickFront).pm = s.pm ∧ (s.tickFront).window = s.window ∧ (s.tickFront).queue = s.queue ∧ (s.tickFront).bus = s.bus ∧
    (s.tickFront).pins = s.pins ∧ (s.tickFront).pending = s.pending := by
  simp [State.tickFront]

@[simp] theorem State.takeTick_frame (s : State) :
    (s.takeTick).window = s.window ∧ (s.takeTick).bus = s.bus ∧ (s.takeTick).pins = s.pins ∧
    (s.takeTick).pending = s.pending ∧ (s.takeTick).pm.sweep = s.pm.sweep ∧ (s.takeTick).pm.fill = s.pm.fill := by
  simp [State.takeTick]

@[simp] theorem State.moveCursor_frame (s : State) (n : Nat) :
    (s.moveCursor n).pm = s.pm ∧ (s.moveCursor n).queue = s.queue ∧ (s.moveCursor n).timebase = s.timebase ∧
    (s.moveCursor n).run = s.run ∧ (s.moveCursor n).play = s.play ∧ (s.moveCursor n).lanes = s.lanes ∧
    (s.moveCursor n).compare = s.compare ∧ (s.moveCursor n).bus = s.bus ∧ (s.moveCursor n).pins = s.pins ∧
    (s.moveCursor n).free = s.free ∧ (s.moveCursor n).pending = s.pending := by
  simp [State.moveCursor]

@[simp] theorem State.offer_frame (s : State) (e : Entry) (n : Nat) :
    (s.offer e n).pm = s.pm ∧ (s.offer e n).timebase = s.timebase ∧ (s.offer e n).run = s.run ∧
    (s.offer e n).play = s.play ∧ (s.offer e n).lanes = s.lanes ∧ (s.offer e n).compare = s.compare ∧
    (s.offer e n).bus = s.bus ∧ (s.offer e n).pins = s.pins ∧ (s.offer e n).free = s.free ∧
    (s.offer e n).pending = s.pending := by
  unfold State.offer; split <;> simp

@[simp] theorem State.sweepRow_frame (s : State) :
    (s.sweepRow).window = s.window ∧ (s.sweepRow).queue = s.queue ∧ (s.sweepRow).timebase = s.timebase ∧
    (s.sweepRow).run = s.run ∧ (s.sweepRow).play = s.play ∧ (s.sweepRow).lanes = s.lanes ∧
    (s.sweepRow).compare = s.compare ∧ (s.sweepRow).bus = s.bus ∧ (s.sweepRow).pins = s.pins ∧ (s.sweepRow).free = s.free ∧
    (s.sweepRow).pending = s.pending ∧ (s.sweepRow).pm.fill = s.pm.fill ∧ (s.sweepRow).pm.commits = s.pm.commits := by
  unfold State.sweepRow; split <;> (try split) <;> simp

@[simp] theorem State.fillRow_frame (s : State) :
    (s.fillRow).window = s.window ∧ (s.fillRow).queue = s.queue ∧ (s.fillRow).timebase = s.timebase ∧
    (s.fillRow).run = s.run ∧ (s.fillRow).play = s.play ∧ (s.fillRow).lanes = s.lanes ∧ (s.fillRow).compare = s.compare ∧
    (s.fillRow).bus = s.bus ∧ (s.fillRow).pins = s.pins ∧ (s.fillRow).free = s.free ∧ (s.fillRow).pending = s.pending ∧
    (s.fillRow).pm.sweep = s.pm.sweep ∧ (s.fillRow).pm.commits = s.pm.commits := by
  unfold State.fillRow; split <;> (try dsimp only) <;> (try split) <;> (try split) <;> (try split) <;> simp

/-- Until a commit application in progress is carried out no fill row is written (1.2, R4). -/
theorem State.fillRow_of_commits (s : State) (h : s.pm.commits ≠ []) : s.fillRow = s := by
  unfold State.fillRow; split <;> simp [h]

@[simp] theorem PatternMemory.fillAfterAbort_none (p : PatternMemory) (n : Nat) (h : p.fill = none) :
    p.fillAfterAbort n = none := by
  simp [PatternMemory.fillAfterAbort, h]

/-- A fill that is ending already goes on to its end (R17, R18). -/
theorem PatternMemory.fillAfterAbort_ending (p : PatternMemory) (n : Nat) (f : Fill) (h : p.fill = some f) (he : f.ending = true) :
    p.fillAfterAbort n = some f := by
  simp [PatternMemory.fillAfterAbort, h, he]

/-- With a commit application in progress a fill that was not ending has no row begun and ends at once (R16, R17, R18). -/
theorem PatternMemory.fillAfterAbort_of_commits (p : PatternMemory) (n : Nat) (f : Fill) (h : p.fill = some f)
    (he : f.ending = false) (hc : p.commits ≠ []) : p.fillAfterAbort n = none := by
  simp [PatternMemory.fillAfterAbort, h, he, hc]

/-- The end of a fill by FILL ABORT or SOFT RESET: no fill is left, or the same fill, ending (R17, R18). -/
theorem PatternMemory.fillAfterAbort_cases (p : PatternMemory) (n : Nat) :
    p.fillAfterAbort n = none ∨ ∃ f, p.fill = some f ∧ p.fillAfterAbort n = some { f with ending := true } := by
  unfold PatternMemory.fillAfterAbort
  cases h : p.fill with
  | none => exact .inl rfl
  | some f =>
    simp only [Option.bind_some]
    split
    · rename_i he
      exact .inr ⟨f, rfl, by rw [← he]⟩
    · split
      · exact .inr ⟨f, rfl, rfl⟩
      · exact .inl rfl

@[simp] theorem State.releaseStart_frame (s : State) :
    (s.releaseStart).pm = s.pm ∧ (s.releaseStart).window = s.window ∧ (s.releaseStart).queue = s.queue ∧
    (s.releaseStart).run = s.run ∧ (s.releaseStart).play = s.play ∧ (s.releaseStart).lanes = s.lanes ∧
    (s.releaseStart).compare = s.compare ∧ (s.releaseStart).events = s.events ∧ (s.releaseStart).bus = s.bus ∧
    (s.releaseStart).pins = s.pins ∧ (s.releaseStart).free = s.free ∧ (s.releaseStart).pending = s.pending := by
  unfold State.releaseStart; split <;> simp

@[simp] theorem State.endCommitApplication_frame (s : State) :
    (s.endCommitApplication).window = s.window ∧ (s.endCommitApplication).queue = s.queue ∧
    (s.endCommitApplication).run = s.run ∧ (s.endCommitApplication).play = s.play ∧
    (s.endCommitApplication).lanes = s.lanes ∧ (s.endCommitApplication).compare = s.compare ∧
    (s.endCommitApplication).events = s.events ∧ (s.endCommitApplication).bus = s.bus ∧
    (s.endCommitApplication).pins = s.pins ∧ (s.endCommitApplication).free = s.free ∧
    (s.endCommitApplication).pending = s.pending ∧ (s.endCommitApplication).pm.rows = s.pm.rows ∧
    (s.endCommitApplication).pm.sweep = s.pm.sweep ∧ (s.endCommitApplication).pm.fill = s.pm.fill := by
  unfold State.endCommitApplication; split <;> simp

end Sys2Proof.Machine
end

