-- ==== Sys2Proof/Laws/BusLines.lean ====
section
/-! SUPPORT. What a bus cycle leaves of the bus lines, and what a sample of the lines does: nothing with the strobes as last seen, one
edge with one strobe moved. -/

namespace Sys2Proof.Machine

/-! ### What a cycle leaves -/

/-- The pins, the commands waiting, the strobes last seen and the word driven are the same in two states. -/
def SameLines (s t : State) : Prop :=
  t.pins = s.pins ∧ t.pending = s.pending ∧ t.bus.seen = s.bus.seen ∧ t.bus.driven = s.bus.driven

theorem SameLines.of_bus {s t : State} (hp : t.pins = s.pins) (hq : t.pending = s.pending) (hb : t.bus = s.bus) : SameLines s t :=
  ⟨hp, hq, by rw [hb], by rw [hb]⟩

theorem State.busCycle_sameLines (s : State) (f : State → State) (h : SameLines s (f s)) : SameLines s (s.busCycle f) := by
  unfold State.busCycle
  split
  · exact ⟨rfl, rfl, rfl, rfl⟩
  · exact h

theorem State.regWrite_sameLines (s : State) (f : State → State) (h : SameLines s (f s)) : SameLines s (s.regWrite f) := by
  apply State.busCycle_sameLines
  split
  · exact .of_bus (by simp) (by simp) (by simp)
  · exact h

theorem State.command_sameLines (s : State) (f : State → State × CmdOutcome) (h : SameLines s (f s).1) :
    SameLines s (s.command f) := by
  apply State.busCycle_sameLines
  split
  · exact ⟨by simp, by simp, rfl, rfl⟩
  · exact ⟨by simpa using h.1, by simpa using h.2.1, h.2.2.1, h.2.2.2⟩

/-- No command's owner touches the bus or the pins. -/
theorem State.ownerOf_sameLines (s : State) (code : Word) : SameLines s (State.ownerOf code s).1 := by
  unfold State.ownerOf
  split
  · unfold State.startCommand; split <;> (try split) <;> exact .of_bus (by simp) (by simp) (by simp)
  · unfold State.armCommand; split <;> (try split) <;> exact .of_bus (by simp) (by simp) (by simp)
  · unfold State.stopCommand; split <;> exact .of_bus (by simp) (by simp) (by simp)
  · unfold State.abortCommand; split <;> exact .of_bus (by simp) (by simp) (by simp)
  · unfold State.setWindow; split <;> (try split) <;> exact .of_bus rfl rfl rfl
  · unfold State.seek; split <;> exact .of_bus rfl rfl rfl
  · unfold State.fillCommand; split <;> (try split) <;> exact .of_bus rfl rfl rfl
  · unfold State.fillAbort; split <;> (try split) <;> exact .of_bus rfl rfl rfl
  · unfold State.closeBatch; split <;> (try split) <;> exact .of_bus (by simp) (by simp) (by simp)
  · unfold State.discardBatch; split <;> exact .of_bus rfl rfl rfl
  · exact .of_bus rfl rfl rfl
  · unfold State.commitCommand; split <;> (try split) <;> exact .of_bus (by simp) (by simp) (by simp)
  · unfold State.popLog; split <;> exact .of_bus rfl rfl rfl
  · exact .of_bus rfl rfl rfl
  · exact .of_bus (by simp [State.softReset]) (by simp [State.softReset]) (by simp [State.softReset])
  · exact .of_bus rfl rfl rfl

theorem State.writeData_sameLines (s : State) (word : Word) : SameLines s (s.writeData word) := by
  unfold State.writeData
  split
  · exact .of_bus (by simp) (by simp) (by simp)
  · split
    · exact .of_bus (by simp [State.writeCellsDirect]) (by simp [State.writeCellsDirect]) (by simp [State.writeCellsDirect])
    · exact .of_bus (by simp [State.writeAttributesDirect]) (by simp [State.writeAttributesDirect])
        (by simp [State.writeAttributesDirect])
    · unfold State.writeCellsStaged; dsimp only; split <;> exact .of_bus (by simp) (by simp) (by simp)
    · exact .of_bus (by simp [State.writeAttributesStaged]) (by simp [State.writeAttributesStaged])
        (by simp [State.writeAttributesStaged])

/-- A DATA read leaves the strobes and the drive to the bus lines; the word is in `readWord`. -/
theorem State.readData_sameLines (s : State) : SameLines s s.readData := by
  unfold State.readData
  split
  · exact ⟨by simp, by simp, by simp [State.answerRead], by simp [State.answerRead]⟩
  · exact ⟨by simp, by simp, by simp [State.answerRead], by simp [State.answerRead]⟩

/-- A write cycle leaves the strobes, the drive, the pins and the commands waiting, at every address. -/
theorem State.writeReg_sameLines (s : State) (addr : Addr) (value : Word) : SameLines s (s.writeReg addr value) := by
  unfold State.writeReg
  split
  · exact State.command_sameLines s _ (s.ownerOf_sameLines value)
  · exact State.busCycle_sameLines s _ (.of_bus rfl rfl rfl)
  · exact State.regWrite_sameLines s _ (.of_bus rfl rfl rfl)
  · exact State.regWrite_sameLines s _ (.of_bus rfl rfl rfl)
  · exact State.regWrite_sameLines s _ (.of_bus rfl rfl rfl)
  · exact State.regWrite_sameLines s _ (.of_bus rfl rfl rfl)
  · exact State.regWrite_sameLines s _ (.of_bus rfl rfl rfl)
  · exact State.busCycle_sameLines s _ (s.writeData_sameLines value)
  · exact State.regWrite_sameLines s _ (.of_bus rfl rfl rfl)
  all_goals first | exact ⟨rfl, rfl, rfl, rfl⟩ | apply State.regWrite_sameLines
  · unfold State.writeLayout; split <;> exact .of_bus (by simp) (by simp) (by simp)
  · unfold State.writeLayout; split <;> exact .of_bus (by simp) (by simp) (by simp)
  · unfold State.writeLayout; split <;> exact .of_bus (by simp) (by simp) (by simp)
  · unfold State.writeLayout; split <;> exact .of_bus (by simp) (by simp) (by simp)
  · unfold State.writeEntryOffset; split <;> (try split) <;> exact .of_bus (by simp) (by simp) (by simp)
  · unfold State.writePassTarget; split <;> (try split) <;> exact .of_bus (by simp) (by simp) (by simp)
  · exact .of_bus rfl rfl rfl
  · unfold State.writeTimebase; split <;> exact .of_bus (by simp) (by simp) (by simp)
  · unfold State.writeTimebase; split <;> exact .of_bus (by simp) (by simp) (by simp)
  · unfold State.writeTimebase; split <;> exact .of_bus (by simp) (by simp) (by simp)
  · unfold State.writeStrobe; split <;> exact .of_bus (by simp) (by simp) (by simp)
  · unfold State.writeWaitLimit; split <;> exact .of_bus (by simp) (by simp) (by simp)
  · unfold State.writePark; split <;> (try split) <;> exact .of_bus (by simp) (by simp) (by simp)
  · unfold State.writePark; split <;> (try split) <;> exact .of_bus (by simp) (by simp) (by simp)
  · unfold State.writeTerm; split <;> exact .of_bus (by simp) (by simp) (by simp)
  · unfold State.writeTerm; split <;> exact .of_bus (by simp) (by simp) (by simp)
  · exact .of_bus rfl rfl rfl
  · unfold State.writePolicy; split <;> exact .of_bus (by simp) (by simp) (by simp)

/-- The beginning of a read drives a word, and leaves the strobes, the pins and the commands waiting. -/
theorem State.beginRead_lines (s : State) (addr : Addr) :
    (s.beginRead addr).pins = s.pins ∧ (s.beginRead addr).pending = s.pending ∧ (s.beginRead addr).bus.seen = s.bus.seen := by
  have h := s.readData_sameLines
  unfold State.beginRead
  split
  · exact ⟨h.1, h.2.1, h.2.2.1⟩
  · exact ⟨rfl, rfl, rfl⟩

@[simp] theorem State.takeBusEvent_lines (s : State) (e : BusEvent) :
    (s.takeBusEvent e).pins = s.pins ∧ (s.takeBusEvent e).pending = s.pending ∧ (s.takeBusEvent e).bus.seen = s.bus.seen := by
  cases e with
  | write => have h := s.writeReg_sameLines s.pins.lines.addr s.pins.lines.data; exact ⟨h.1, h.2.1, h.2.2.1⟩
  | read => exact s.beginRead_lines s.pins.lines.addr
  | nothing => exact ⟨rfl, rfl, rfl⟩

/-- Only a read leaves a word driven. -/
theorem State.takeBusEvent_driven (s : State) (e : BusEvent) (h : e ≠ .read) : (s.takeBusEvent e).bus.driven = s.bus.driven := by
  cases e with
  | write => exact (s.writeReg_sameLines _ _).2.2.2
  | read => exact absurd rfl h
  | nothing => rfl

/-! ### One strobe -/

/-- A strobe that has not moved brings nothing. -/
theorem State.followStrobe_still (s : State) (k : Strobe) (h : s.pins.lines.strobes.follow k s.bus.seen = s.bus.seen) :
    s.followStrobe k = s := if_pos h

/-- A strobe that has moved stops the drive and brings the event of its edge (R165). -/
theorem State.followStrobe_moved (s : State) (k : Strobe) (h : s.pins.lines.strobes.follow k s.bus.seen ≠ s.bus.seen) :
    s.followStrobe k =
      ({ s with bus := { s.bus with seen := s.pins.lines.strobes.follow k s.bus.seen, driven := none } }).takeBusEvent
        ((s.pins.lines.strobes.follow k s.bus.seen).event k) := if_neg h

@[simp] theorem State.followStrobe_lines (s : State) (k : Strobe) :
    (s.followStrobe k).pins = s.pins ∧ (s.followStrobe k).pending = s.pending ∧
    (s.followStrobe k).bus.seen = s.pins.lines.strobes.follow k s.bus.seen := by
  unfold State.followStrobe
  dsimp only
  split
  · next h => exact ⟨rfl, rfl, h.symm⟩
  · exact State.takeBusEvent_lines _ _

/-! ### The sample -/

/-- With the strobes as last seen the sample brings nothing. -/
theorem State.sampleLines_still (s : State) (h : s.bus.seen = s.pins.lines.strobes) : s.sampleLines = s := if_pos h

/-- After the sample the strobes are seen as they stand; the pins and the commands waiting are as they were. -/
@[simp] theorem State.sampleLines_lines (s : State) :
    s.sampleLines.pins = s.pins ∧ s.sampleLines.pending = s.pending ∧ s.sampleLines.bus.seen = s.pins.lines.strobes := by
  unfold State.sampleLines
  split
  · next h => exact ⟨rfl, rfl, h⟩
  · generalize Config.strobeOrder s.free = o
    match o with
    | 0 | 1 | 2 | 3 | 4 | 5 => simp [strobeOrders, Strobes.follow]

/-- The blocks' part of a CLKIN cycle leaves the window, the bus, the pins and the commands waiting. -/
@[simp] theorem State.clockBlocks_frame (s : State) :
    s.clockBlocks.window = s.window ∧ s.clockBlocks.bus = s.bus ∧ s.clockBlocks.pins = s.pins ∧
    s.clockBlocks.pending = s.pending ∧ s.clockBlocks.pm.fill = s.pm.fill := by
  have hp : s.clockPulses.window = s.window ∧ s.clockPulses.bus = s.bus ∧ s.clockPulses.pins = s.pins ∧
      s.clockPulses.pending = s.pending ∧ s.clockPulses.pm = s.pm := ⟨rfl, rfl, rfl, rfl, rfl⟩
  have ht : ∀ u : State, u.clockTimebase.window = u.window ∧ u.clockTimebase.bus = u.bus ∧ u.clockTimebase.pins = u.pins ∧
      u.clockTimebase.pending = u.pending ∧ u.clockTimebase.pm.fill = u.pm.fill := by
    intro u; unfold State.clockTimebase; split <;> (try split) <;> (try split) <;> simp
  have hc : ∀ (u : State) b, (u.clockCommit b).window = u.window ∧ (u.clockCommit b).bus = u.bus ∧
      (u.clockCommit b).pins = u.pins ∧ (u.clockCommit b).pending = u.pending ∧ (u.clockCommit b).pm.fill = u.pm.fill := by
    intro u b; unfold State.clockCommit; split <;> (try split) <;> simp
  unfold State.clockBlocks
  simp [hc, ht, hp]

/-- Where one strobe alone has moved, the others have not. -/
theorem Strobes.follow_still {now seen : Strobes} {j k : Strobe} (h : now.follow k seen = now) (hj : j ≠ k) :
    now.follow j seen = seen := by
  cases now; cases seen
  cases j <;> cases k <;> simp_all [Strobes.follow]

/-- A CLKIN cycle that brings no edge is the blocks' alone. -/
theorem State.clockCycle_quiet (s : State) (h : s.pins.resetLow = false) (hq : s.bus.seen = s.pins.lines.strobes) :
    s.clockCycle = s.clockBlocks := by
  unfold State.clockCycle
  rw [h]
  exact State.sampleLines_still _ (by simpa using hq)

/-- A sample with one strobe moved is that strobe's edge, in whatever order the strobes are followed. -/
theorem State.sampleLines_one (s : State) (k : Strobe) (hm : s.pins.lines.strobes ≠ s.bus.seen)
    (h : s.pins.lines.strobes.follow k s.bus.seen = s.pins.lines.strobes) :
    s.sampleLines = ({ s with
      free := s.free + 1
      bus := { s.bus with seen := s.pins.lines.strobes, driven := none } }).takeBusEvent (s.pins.lines.strobes.event k) := by
  have before : ∀ j, j ≠ k → ({ s with free := s.free + 1 } : State).followStrobe j = { s with free := s.free + 1 } := by
    intro j hj
    exact State.followStrobe_still _ j (Strobes.follow_still h hj)
  have at_k : ({ s with free := s.free + 1 } : State).followStrobe k = ({ s with
      free := s.free + 1
      bus := { s.bus with seen := s.pins.lines.strobes, driven := none } }).takeBusEvent (s.pins.lines.strobes.event k) := by
    rw [State.followStrobe_moved _ k (by dsimp only; rw [h]; exact hm)]
    dsimp only
    rw [h]
  have after : ∀ t : State, t.pins = s.pins → t.bus.seen = s.pins.lines.strobes → ∀ j, t.followStrobe j = t := by
    intro t hp hs j
    apply State.followStrobe_still
    rw [hp, hs]
    cases j <;> rfl
  have rest := after _ (State.takeBusEvent_lines ({ s with
      free := s.free + 1
      bus := { s.bus with seen := s.pins.lines.strobes, driven := none } }) (s.pins.lines.strobes.event k)).1
    (State.takeBusEvent_lines _ _).2.2
  unfold State.sampleLines
  rw [if_neg fun e => hm e.symm]
  generalize Config.strobeOrder s.free = o
  match o with
  | 0 | 1 | 2 | 3 | 4 | 5 => cases k <;> simp [strobeOrders, before, at_k, rest]

/-- A sample with WR_N high in which CS_N, RD_N or both have fallen, so that both are low, is one read, in whatever order they are
followed. -/
theorem State.sampleLines_read (s : State) (hn : s.pins.lines.strobes = ⟨true, true, false⟩) (hw : s.bus.seen.wrLow = false)
    (hm : s.bus.seen ≠ s.pins.lines.strobes) :
    s.sampleLines = ({ s with
      free := s.free + 1
      bus := { s.bus with seen := s.pins.lines.strobes, driven := none } }).beginRead s.pins.lines.addr := by
  have key : ∀ c r, s.bus.seen = ⟨c, r, false⟩ → s.sampleLines = ({ s with
      free := s.free + 1
      bus := { s.bus with seen := s.pins.lines.strobes, driven := none } }).beginRead s.pins.lines.addr := by
    intro c r hs
    cases c <;> cases r
    · have wr : ∀ (t : State) (b d : Bool), t.pins = s.pins → t.bus.seen = ⟨b, d, false⟩ → t.followStrobe .wr = t := by
        intro t b d hp ht
        apply State.followStrobe_still
        rw [hp, ht, hn]
        rfl
      have cs : ({ s with free := s.free + 1 } : State).followStrobe .cs =
          { s with free := s.free + 1, bus := { s.bus with seen := ⟨true, false, false⟩, driven := none } } := by
        rw [State.followStrobe_moved _ _ (by dsimp only; rw [hs, hn]; decide)]
        dsimp only
        rw [hs, hn]
        rfl
      have rd : ({ s with free := s.free + 1 } : State).followStrobe .rd =
          { s with free := s.free + 1, bus := { s.bus with seen := ⟨false, true, false⟩, driven := none } } := by
        rw [State.followStrobe_moved _ _ (by dsimp only; rw [hs, hn]; decide)]
        dsimp only
        rw [hs, hn]
        rfl
      have csRd : ({ s with
          free := s.free + 1
          bus := { s.bus with seen := ⟨true, false, false⟩, driven := none } } : State).followStrobe .rd = ({ s with
          free := s.free + 1
          bus := { s.bus with seen := ⟨true, true, false⟩, driven := none } }).beginRead s.pins.lines.addr := by
        rw [State.followStrobe_moved _ _ (by dsimp only; rw [hn]; decide)]
        dsimp only
        rw [hn]
        rfl
      have rdCs : ({ s with
          free := s.free + 1
          bus := { s.bus with seen := ⟨false, true, false⟩, driven := none } } : State).followStrobe .cs = ({ s with
          free := s.free + 1
          bus := { s.bus with seen := ⟨true, true, false⟩, driven := none } }).beginRead s.pins.lines.addr := by
        rw [State.followStrobe_moved _ _ (by dsimp only; rw [hn]; decide)]
        dsimp only
        rw [hn]
        rfl
      have lines := State.beginRead_lines ({ s with
        free := s.free + 1
        bus := { s.bus with seen := ⟨true, true, false⟩, driven := none } }) s.pins.lines.addr
      have w₁ := wr _ _ _ lines.1 lines.2.2
      have w₂ := wr { s with free := s.free + 1 } _ _ rfl hs
      have w₃ := wr { s with free := s.free + 1, bus := { s.bus with seen := ⟨true, false, false⟩, driven := none } } _ _ rfl rfl
      have w₄ := wr { s with free := s.free + 1, bus := { s.bus with seen := ⟨false, true, false⟩, driven := none } } _ _ rfl rfl
      unfold State.sampleLines
      rw [if_neg hm, hn]
      generalize Config.strobeOrder s.free = o
      match o with
      | 0 | 1 | 2 | 3 | 4 | 5 => simp [strobeOrders, cs, rd, csRd, rdCs, w₁, w₂, w₃, w₄]
    · rw [State.sampleLines_one s .cs hm.symm (by rw [hs, hn]; rfl), hn]
      rfl
    · rw [State.sampleLines_one s .rd hm.symm (by rw [hs, hn]; rfl), hn]
      rfl
    · exact absurd (hs.trans hn.symm) hm
  exact key s.bus.seen.csLow s.bus.seen.rdLow (by rw [← hw])

end Sys2Proof.Machine
end

