-- ==== Sys2Proof/Laws/Lanes.lean ====
section
/-! SUPPORT. The small lemmas of `Lanes`: reading a lane of what each operation builds. -/

namespace Sys2Proof.Lanes

variable {α : Type}

@[simp] theorem get_ofFn (f : Lane → α) (n : Lane) : (ofFn f).get n = f n := by
  fin_cases n <;> rfl

@[simp] theorem get_all (x : α) (n : Lane) : (all x).get n = x := by simp [all]

theorem get_set (v : Lanes α) (n m : Lane) (x : α) : (v.set n x).get m = if m = n then x else v.get m := by
  simp [set]

@[simp] theorem get_set_same (v : Lanes α) (n : Lane) (x : α) : (v.set n x).get n = x := by simp [set]

theorem get_set_other (v : Lanes α) {n m : Lane} (x : α) (h : m ≠ n) : (v.set n x).get m = v.get m := by
  simp [set, h]

/-- Two are equal when every lane is. -/
@[ext] theorem ext_get {u v : Lanes α} (h : ∀ n, u.get n = v.get n) : u = v := by
  cases u; cases v
  simp only [Lanes.mk.injEq]
  exact ⟨h 0, h 1, h 2, h 3, h 4, h 5, h 6, h 7, h 8, h 9, h 10, h 11, h 12, h 13, h 14, h 15⟩

@[simp] theorem ofFn_get (v : Lanes α) : (ofFn fun n => v.get n) = v := by ext n; simp

/-- A set of lanes is not empty exactly when it has a lane. -/
theorem any_eq_true (v : Lanes Bool) : v.any = true ↔ ∃ n, v.get n = true := by
  constructor
  · intro h
    simp only [any, Bool.or_eq_true] at h
    rcases h with ((((((((((((((h | h) | h) | h) | h) | h) | h) | h) | h) | h) | h) | h) | h) | h) | h) | h
    exacts [⟨0, h⟩, ⟨1, h⟩, ⟨2, h⟩, ⟨3, h⟩, ⟨4, h⟩, ⟨5, h⟩, ⟨6, h⟩, ⟨7, h⟩, ⟨8, h⟩, ⟨9, h⟩, ⟨10, h⟩, ⟨11, h⟩,
      ⟨12, h⟩, ⟨13, h⟩, ⟨14, h⟩, ⟨15, h⟩]
  · rintro ⟨n, h⟩
    fin_cases n <;> simp [any, get] at h ⊢ <;> simp [h]

/-- Bit n of the word of a set of lanes says whether Ln is in it. -/
theorem getLsbD_toWord (v : Lanes Bool) (n : Lane) : v.toWord.getLsbD n.val = v.get n := by
  rw [toWord, BitVec.getLsbD_ofBoolListLE]
  fin_cases n <;> rfl

end Sys2Proof.Lanes
end

