-- ==== Sys2Proof/Laws/LaneUnit.lean ====
section
/-! SUPPORT. The lane unit: what a request sets, that the keepers follow the pins after every request, and what a pin shows. -/

namespace Sys2Proof.Machine

/-! ### What a request sets -/

@[simp] theorem LaneUnit.settle_fields (u v : LaneUnit) (free : Nat) :
    (u.settle v free).effective = v.effective ∧ (u.settle v free).park = v.park ∧ (u.settle v free).term = v.term ∧
    (u.settle v free).uut = v.uut ∧ (u.settle v free).active = v.active ∧ (u.settle v free).sample = v.sample := by
  simp [LaneUnit.settle]

@[simp] theorem State.setLanes_free (s : State) (f : LaneUnit → LaneUnit) : (s.setLanes f).free = s.free + 1 := rfl

@[simp] theorem State.setLanes_lanes (s : State) (f : LaneUnit → LaneUnit) :
    (s.setLanes f).lanes = s.lanes.settle (f s.lanes) s.free := rfl

@[simp] theorem LaneUnit.parkStates_settle (u v : LaneUnit) (free : Nat) :
    (u.settle v free).parkStates = v.parkStates := by simp [LaneUnit.parkStates]

@[simp] theorem LaneUnit.parkStates_get (u : LaneUnit) (n : Lane) : u.parkStates.get n = (u.park.get n).state := by
  simp [LaneUnit.parkStates]

/-- A park leaves every lane at its park state and changes no setting (R129). -/
@[simp] theorem LaneUnit.parkAll_fields (u : LaneUnit) :
    u.parkAll.effective = u.parkStates ∧ u.parkAll.park = u.park ∧ u.parkAll.term = u.term ∧ u.parkAll.uut = u.uut ∧
    u.parkAll.active = u.active ∧ u.parkAll.sample = u.sample ∧ u.parkAll.parkStates = u.parkStates := by
  simp [LaneUnit.parkAll, LaneUnit.parkStates]

/-- A hold changes no setting; the effective states are the held ones (R131). -/
@[simp] theorem LaneUnit.holdAll_fields (u : LaneUnit) :
    (∀ n, u.holdAll.effective.get n = (u.effective.get n).held) ∧ u.holdAll.park = u.park ∧ u.holdAll.term = u.term ∧
    u.holdAll.uut = u.uut ∧ u.holdAll.active = u.active ∧ u.holdAll.sample = u.sample := by
  simp [LaneUnit.holdAll]

/-- A latch gives every lane its resolved state and changes no setting (R125). -/
@[simp] theorem LaneUnit.latch_fields (u : LaneUnit) (v : Lanes LaneState) :
    (u.latch v).effective = v ∧ (u.latch v).park = u.park ∧ (u.latch v).term = u.term ∧ (u.latch v).uut = u.uut ∧
    (u.latch v).active = u.active ∧ (u.latch v).sample = u.sample ∧ (u.latch v).parkStates = u.parkStates := by
  simp [LaneUnit.latch, LaneUnit.parkStates]

/-! ### Pins and keepers -/

theorem LaneUnit.driver_settle (u v : LaneUnit) (free : Nat) (n : Lane) : (u.settle v free).driver n = v.driver n := by
  simp [LaneUnit.driver]

theorem LaneUnit.pull_settle (u v : LaneUnit) (free : Nat) (n : Lane) : (u.settle v free).pull n = v.pull n := by
  simp [LaneUnit.pull, LaneUnit.driver_settle]

theorem LaneUnit.pinLevelFrom_settle (u v : LaneUnit) (free : Nat) (k : Bool) (n : Lane) :
    (u.settle v free).pinLevelFrom k n = v.pinLevelFrom k n := by
  simp [LaneUnit.pinLevelFrom, LaneUnit.driver_settle, LaneUnit.pull_settle]

theorem LaneUnit.keeper_settle (u v : LaneUnit) (free : Nat) (n : Lane) :
    (u.settle v free).keeper.get n = (v.pinLevelFrom (u.keptLevel v free n) n).getD (u.keptLevel v free n) := by
  simp [LaneUnit.settle]

/-- A pin that is at a level stays at it when its keeper takes that level. -/
theorem LaneUnit.pinLevelFrom_self (u : LaneUnit) (k b : Bool) (n : Lane) (h : u.pinLevelFrom k n = some b) :
    u.pinLevelFrom b n = some b := by
  unfold LaneUnit.pinLevelFrom at h ⊢
  cases hd : u.driver n with
  | some d => simpa [hd] using h
  | none =>
    cases hu : uutLevel (u.uut.get n) with
    | some d => simpa [hd, hu] using h
    | none =>
      cases hp : u.pull n with
      | none => simp
      | some p =>
        simp only [hd, hu, hp] at h ⊢
        split at h
        · cases h; simp
        · cases h

/-- After every request of the lane unit each keeper holds the level of its pin (R127). -/
theorem LaneUnit.settle_keepersFollow (u v : LaneUnit) (free : Nat) : KeepersFollow (u.settle v free) := by
  intro n b h
  rw [LaneUnit.pinLevel, LaneUnit.pinLevelFrom_settle, LaneUnit.keeper_settle] at h
  rw [LaneUnit.keeper_settle]
  cases hp : v.pinLevelFrom (u.keptLevel v free n) n with
  | none => rw [hp] at h; simp [hp] at h
  | some c =>
    rw [hp] at h
    have := v.pinLevelFrom_self _ _ n hp
    simp only [Option.getD_some] at h ⊢
    rw [this] at h
    exact Option.some.inj h

/-- The keepers follow after every request (R127). -/
theorem State.setLanes_keepersFollow (s : State) (f : LaneUnit → LaneUnit) : KeepersFollow (s.setLanes f).lanes :=
  LaneUnit.settle_keepersFollow _ _ _

/-- A driven lane's pin is at the level its driver holds (R124). -/
theorem LaneUnit.pinLevel_driven (u : LaneUnit) (n : Lane) (b : Bool) (h : u.driver n = some b) : u.pinLevel n = some b := by
  simp [LaneUnit.pinLevel, LaneUnit.pinLevelFrom, h]

/-- An undriven lane that the unit under test drives is at its level (R127). -/
theorem LaneUnit.pinLevel_uut (u : LaneUnit) (n : Lane) (b : Bool) (h : u.driver n = none)
    (hu : uutLevel (u.uut.get n) = some b) : u.pinLevel n = some b := by
  simp [LaneUnit.pinLevel, LaneUnit.pinLevelFrom, h, hu]

/-- An undriven lane with nothing acting on it stays at its keeper's level (R127). -/
theorem LaneUnit.pinLevel_kept (u : LaneUnit) (n : Lane) (h : u.driver n = none) (hu : uutLevel (u.uut.get n) = none)
    (hp : u.pull n = none) : u.pinLevel n = some (u.keeper.get n) := by
  simp [LaneUnit.pinLevel, LaneUnit.pinLevelFrom, h, hu, hp]

end Sys2Proof.Machine
end

