-- ==== Sys2Proof/Laws/Memory.lean ====
section
/-! SUPPORT. Pattern memory: a read after a write, that a write leaves every other place alone, and that every memory operation keeps
the canonical form. -/

namespace Sys2Proof.Machine.Memory

/-! ### Reading rows -/

theorem lookup_insert (m : Memory) (r q : Nat) (v : RowData) :
    (insert m r v).lookup q = if q = r then v else m.lookup q := by
  induction m with
  | nil =>
    by_cases h : q = r
    · simp [insert, lookup, h]
    · simp [insert, lookup, h, Ne.symm h]
  | cons e m ih =>
    obtain ⟨k, w⟩ := e
    by_cases h : q = r
    · subst h
      by_cases hk : q < k
      · simp [insert, lookup, hk]
      · by_cases hq : q = k
        · simp [insert, lookup, hq]
        · simp [insert, lookup, hk, hq, Ne.symm hq, ih]
    · by_cases hk : r < k
      · simp [insert, lookup, hk, h, Ne.symm h]
      · by_cases hr : r = k
        · subst hr; simp [insert, lookup, h, Ne.symm h]
        · simp [insert, lookup, hk, hr, h, ih]

theorem lookup_filter (m : Memory) (r q : Nat) :
    lookup (m.filter fun e => e.1 != r) q = if q = r then .reset else m.lookup q := by
  induction m with
  | nil => simp [lookup]
  | cons e m ih =>
    obtain ⟨k, w⟩ := e
    by_cases hk : k = r
    · subst hk
      by_cases hq : q = k
      · subst hq; simpa [List.filter_cons] using ih
      · simpa [List.filter_cons, lookup, hq, Ne.symm hq] using ih
    · by_cases hq : k = q
      · subst hq; simp [lookup, hk]
      · simpa [List.filter_cons, lookup, hk, hq] using ih

theorem lookup_store (m : Memory) (r q : Nat) (v : RowData) :
    (m.store r v).lookup q = if q = r then v else m.lookup q := by
  unfold store
  split
  · next h => subst h; exact lookup_filter m r q
  · exact lookup_insert m r q v

/-- A read after a row write: the row written at its number, every other row as before. -/
theorem row_writeRow (m : Memory) (r q : RowNum) (v : RowData) :
    (m.writeRow r v).row q = if q = r then v else m.row q := by
  simp [writeRow, row, lookup_store, Fin.ext_iff]

/-- A read after an attribute write. -/
theorem row_writeAttributes (m : Memory) (r q : RowNum) (a : Attributes) :
    (m.writeAttributes r a).row q = if q = r then { m.row r with attributes := a } else m.row q := by
  simp [writeAttributes, row_writeRow]

/-- A read after a cell write. -/
theorem row_writeCell (m : Memory) (r q : RowNum) (n : Lane) (c : CellCode) :
    (m.writeCell r n c).row q = if q = r then { m.row r with cells := (m.row r).cells.set n c } else m.row q := by
  simp [writeCell, row_writeRow]

/-- A cell write gives its cell the code and leaves every other cell alone. -/
theorem cell_writeCell (m : Memory) (r q : RowNum) (n l : Lane) (c : CellCode) :
    (m.writeCell r n c).cell q l = if q = r ∧ l = n then c else m.cell q l := by
  unfold cell
  rw [row_writeCell]
  by_cases h : q = r
  · subst h; simp [Lanes.get_set]
  · simp [h]

/-- A cell write leaves every attribute record alone. -/
@[simp] theorem attributes_writeCell (m : Memory) (r q : RowNum) (n : Lane) (c : CellCode) :
    (m.writeCell r n c).attributes q = m.attributes q := by
  unfold attributes
  rw [row_writeCell]
  by_cases h : q = r
  · subst h; simp
  · simp [h]

/-- An attribute write replaces its row's record and leaves every other alone. -/
theorem attributes_writeAttributes (m : Memory) (r q : RowNum) (a : Attributes) :
    (m.writeAttributes r a).attributes q = if q = r then a else m.attributes q := by
  unfold attributes
  rw [row_writeAttributes]
  by_cases h : q = r
  · subst h; simp
  · simp [h]

/-- An attribute write leaves every cell alone. -/
@[simp] theorem cell_writeAttributes (m : Memory) (r q : RowNum) (l : Lane) (a : Attributes) :
    (m.writeAttributes r a).cell q l = m.cell q l := by
  unfold cell
  rw [row_writeAttributes]
  by_cases h : q = r
  · subst h; simp
  · simp [h]

@[simp] theorem writeCells_nil (m : Memory) : m.writeCells [] = m := rfl

@[simp] theorem writeCells_cons (m : Memory) (t : Triple) (ts : List Triple) :
    m.writeCells (t :: ts) = (m.writeCell t.row t.lane t.code).writeCells ts := rfl

/-- Cell writes leave every attribute record alone. -/
@[simp] theorem attributes_writeCells (m : Memory) (ts : List Triple) (q : RowNum) :
    (m.writeCells ts).attributes q = m.attributes q := by
  induction ts generalizing m with
  | nil => rfl
  | cons t ts ih => simp [ih]

/-- Cell writes leave alone a cell that none of them names. -/
theorem cell_writeCells_other (m : Memory) (ts : List Triple) (q : RowNum) (l : Lane)
    (h : ∀ t ∈ ts, ¬ (q = t.row ∧ l = t.lane)) : (m.writeCells ts).cell q l = m.cell q l := by
  induction ts generalizing m with
  | nil => rfl
  | cons t ts ih =>
    rw [writeCells_cons, ih _ fun u hu => h u (List.mem_cons_of_mem _ hu), cell_writeCell,
      if_neg (h t List.mem_cons_self)]

/-- The last write to a cell stays. -/
theorem cell_writeCells_last (m : Memory) (ts us : List Triple) (t : Triple)
    (h : ∀ u ∈ us, ¬ (t.row = u.row ∧ t.lane = u.lane)) :
    (m.writeCells (ts ++ t :: us)).cell t.row t.lane = t.code := by
  have : m.writeCells (ts ++ t :: us) = ((m.writeCells ts).writeCell t.row t.lane t.code).writeCells us := by
    simp [writeCells, List.foldl_append]
  rw [this, cell_writeCells_other _ _ _ _ h, cell_writeCell]
  simp

/-! ### The canonical form -/

theorem wf_iff (m : Memory) :
    m.wf = true ↔ (m.Pairwise fun a b => a.1 < b.1) ∧ ∀ e ∈ m, e.1 < 4096 ∧ e.2 ≠ .reset := by
  simp [wf, List.all_eq_true]

@[simp] theorem wf_nil : wf [] = true := by decide

theorem mem_insert {m : Memory} {r : Nat} {v : RowData} {e : Nat × RowData} (h : e ∈ insert m r v) :
    e = (r, v) ∨ e ∈ m := by
  induction m with
  | nil => simpa [insert] using h
  | cons d m ih =>
    obtain ⟨k, w⟩ := d
    unfold insert at h
    split at h
    · simpa using h
    · split at h
      · rcases List.mem_cons.1 h with h | h
        · exact .inl h
        · exact .inr (List.mem_cons_of_mem _ h)
      · rcases List.mem_cons.1 h with h | h
        · exact .inr (h ▸ List.mem_cons_self)
        · exact (ih h).imp id (List.mem_cons_of_mem _)

theorem pairwise_insert {m : Memory} (r : Nat) (v : RowData) (h : m.Pairwise fun a b => a.1 < b.1) :
    (insert m r v).Pairwise fun a b => a.1 < b.1 := by
  induction m with
  | nil => simp [insert]
  | cons d m ih =>
    obtain ⟨k, w⟩ := d
    obtain ⟨hd, hm⟩ := List.pairwise_cons.1 h
    unfold insert
    split
    · next hr =>
      refine List.pairwise_cons.2 ⟨fun e he => ?_, h⟩
      rcases List.mem_cons.1 he with rfl | he
      · exact hr
      · exact lt_trans hr (hd e he)
    · split
      · next hr => exact List.pairwise_cons.2 ⟨fun e he => hr ▸ hd e he, hm⟩
      · refine List.pairwise_cons.2 ⟨fun e he => ?_, ih hm⟩
        rcases mem_insert he with rfl | he
        · show k < r; omega
        · exact hd e he

theorem wf_store {m : Memory} (r : Nat) (v : RowData) (hr : r < 4096) (h : m.wf = true) : (m.store r v).wf = true := by
  rw [wf_iff] at h ⊢
  unfold store
  split
  · exact ⟨h.1.filter _, fun e he => h.2 e (List.mem_filter.1 he).1⟩
  · next hv =>
    refine ⟨pairwise_insert r v h.1, fun e he => ?_⟩
    rcases mem_insert he with rfl | he
    · exact ⟨hr, hv⟩
    · exact h.2 e he

/-- A row write keeps the canonical form. -/
theorem wf_writeRow {m : Memory} (r : RowNum) (v : RowData) (h : m.wf = true) : (m.writeRow r v).wf = true :=
  wf_store r.val v r.isLt h

/-- A cell write keeps the canonical form. -/
theorem wf_writeCell {m : Memory} (r : RowNum) (n : Lane) (c : CellCode) (h : m.wf = true) :
    (m.writeCell r n c).wf = true := wf_writeRow _ _ h

/-- An attribute write keeps the canonical form. -/
theorem wf_writeAttributes {m : Memory} (r : RowNum) (a : Attributes) (h : m.wf = true) :
    (m.writeAttributes r a).wf = true := wf_writeRow _ _ h

/-- Cell writes keep the canonical form. -/
theorem wf_writeCells {m : Memory} (ts : List Triple) (h : m.wf = true) : (m.writeCells ts).wf = true := by
  induction ts generalizing m with
  | nil => exact h
  | cons t ts ih => exact ih (wf_writeCell _ _ _ h)

/-- The writes of a queue entry keep the canonical form. -/
theorem wf_apply {m : Memory} (e : Entry) (h : m.wf = true) : (m.apply e).wf = true := by
  cases e with
  | cells ts => exact wf_writeCells ts h
  | attributes r a => exact wf_writeAttributes r a h

/-- A commit's writes keep the canonical form. -/
theorem wf_foldl_apply {m : Memory} (es : List Entry) (h : m.wf = true) : (es.foldl apply m).wf = true := by
  induction es generalizing m with
  | nil => exact h
  | cons e es ih => exact ih (wf_apply e h)

/-- The memory of the reset state is in canonical form. -/
theorem wf_reset : State.reset.pm.rows.wf = true := by decide

end Sys2Proof.Machine.Memory
end

