-- ==== Sys2Proof/Laws/Playback.lean ====
section
/-! SUPPORT. What a latch, a park, a commit and the ways a run moves on leave in the parts they do touch. -/

namespace Sys2Proof.Machine

/-! ### Lane requests of run control -/

@[simp] theorem State.parkLanes_lanes (s : State) :
    s.parkLanes.lanes.effective = s.lanes.parkStates ∧ s.parkLanes.lanes.park = s.lanes.park ∧
    s.parkLanes.lanes.parkStates = s.lanes.parkStates ∧ s.parkLanes.lanes.active = s.lanes.active := by
  simp [State.parkLanes]

@[simp] theorem State.holdLanes_lanes (s : State) :
    s.holdLanes.lanes.park = s.lanes.park ∧ s.holdLanes.lanes.active = s.lanes.active ∧
    s.holdLanes.lanes.parkStates = s.lanes.parkStates := by
  simp [State.holdLanes, LaneUnit.parkStates]

/-! ### The latch -/

/-- A latch sets CUR_ROW and nothing else of run control (R86). -/
@[simp] theorem State.latchRow_run (s : State) (r : RowNum) (v : Lanes LaneState) :
    (s.latchRow r v).run = { s.run with curRow := r } := by
  unfold State.latchRow; dsimp only; split <;> simp

/-- What a latch takes from the row (R104). -/
@[simp] theorem State.latchRow_play (s : State) (r : RowNum) (v : Lanes LaneState) :
    (s.latchRow r v).play.latched =
      some ⟨r, resolveRow v (s.pm.rows.row r).cells, (s.pm.rows.row r).attributes.dwellLess1,
        (s.pm.rows.row r).attributes.wait⟩ ∧
    (s.latchRow r v).play.phase = (if (s.pm.rows.row r).attributes.wait then .waiting else .dwell) ∧
    (s.latchRow r v).play.tickInRow = 0 ∧ (s.latchRow r v).play.waitCount = 0 ∧
    (s.latchRow r v).play.strobe = s.play.strobe ∧ (s.latchRow r v).play.waitLimit = s.play.waitLimit ∧
    (s.latchRow r v).play.checkMismatch = s.play.checkMismatch := by
  unfold State.latchRow; dsimp only; split <;> simp [State.pulseMark, Playback.latch, State.raise]

/-- A latch gives every lane its resolved state and changes no setting (R125). -/
@[simp] theorem State.latchRow_lanes (s : State) (r : RowNum) (v : Lanes LaneState) :
    (s.latchRow r v).lanes.effective = resolveRow v (s.pm.rows.row r).cells ∧
    (s.latchRow r v).lanes.park = s.lanes.park ∧ (s.latchRow r v).lanes.active = s.lanes.active ∧
    (s.latchRow r v).lanes.parkStates = s.lanes.parkStates := by
  unfold State.latchRow; dsimp only
  split <;> simp [State.latchLanes, State.pulseMark, State.raise]

theorem State.latchRow_keepersFollow (s : State) (r : RowNum) (v : Lanes LaneState) :
    KeepersFollow (s.latchRow r v).lanes := by
  have h : (s.latchRow r v).lanes = (s.latchLanes (resolveRow v (s.pm.rows.row r).cells)).lanes := by
    unfold State.latchRow; dsimp only
    split <;> simp [State.pulseMark, State.raise]
  rw [h]; exact s.setLanes_keepersFollow _

@[simp] theorem State.latchNext_run (s : State) (n : Nat) :
    (s.latchNext n).run = { s.run with curRow := RowNum.ofSum n } := by simp [State.latchNext]

/-- A row number below 4096 names its row. -/
theorem RowNum.val_ofSum {n : Nat} (h : n < 4096) : (RowNum.ofSum n).val = n := by
  simp [RowNum.ofSum, Nat.mod_eq_of_lt h]

/-! ### Commit points -/

/-- With no closed batch a commit does nothing (R51). -/
theorem State.commitPoint_nil (s : State) (h : s.queue.closed = []) : s.commitPoint = s := by
  unfold State.commitPoint; rw [h]

/-- With a closed batch waiting a commit writes PM, empties the closed batches and raises COMMIT (R51). -/
theorem State.commitPoint_cons (s : State) (h : s.queue.closed ≠ []) :
    s.commitPoint.pm.rows = s.queue.committed.foldl Memory.apply s.pm.rows ∧
    s.commitPoint.pm.commits = s.pm.commits ++ [s.queue.commitCycles] ∧
    s.commitPoint.events = s.events.raise .commit := by
  unfold State.commitPoint
  cases hc : s.queue.closed with
  | nil => exact absurd hc h
  | cons b bs => simp [State.raise]

/-- After a commit the queue holds the open batch alone, with the next batch number as it was (R51). -/
@[simp] theorem State.commitPoint_queue (s : State) :
    s.commitPoint.queue.closed = [] ∧ s.commitPoint.queue.openBatch = s.queue.openBatch ∧
    s.commitPoint.queue.next = s.queue.next := by
  unfold State.commitPoint
  split
  · next h => simp [h]
  · simp [State.raise]

/-- A commit keeps the canonical form of PM. -/
theorem State.commitPoint_wf (s : State) (h : s.pm.rows.wf = true) : s.commitPoint.pm.rows.wf = true := by
  by_cases hc : s.queue.closed = []
  · rw [State.commitPoint_nil s hc]; exact h
  · rw [(State.commitPoint_cons s hc).1]; exact Memory.wf_foldl_apply _ h

/-! ### Requests that set one field -/

@[simp] theorem State.stopTimebase_timebase (s : State) : s.stopTimebase.timebase = s.timebase.stop := rfl

@[simp] theorem State.startTimebase_timebase (s : State) : s.startTimebase.timebase = s.timebase.start := rfl

@[simp] theorem State.enter_run (s : State) (q : SeqState) : (s.enter q).run = { s.run with seq := q, passRows := 0 } := rfl

@[simp] theorem State.discardRow_play (s : State) :
    s.discardRow.play = { s.play with latched := none, phase := .dwell, tickInRow := 0, waitCount := 0 } := rfl

@[simp] theorem State.clearLog_compare (s : State) : s.clearLog.compare = { s.compare with log := [], overflow := 0 } := rfl

@[simp] theorem State.raise_events (s : State) (e : Event) : (s.raise e).events = s.events.raise e := rfl

@[simp] theorem State.report_bus (s : State) (o : CmdOutcome) :
    (s.report o).bus = { s.bus with outcome := o, serial := s.bus.serial + 1 } := rfl

/-- What the end of a run and ABORT leave in run control (R91, R95). -/
@[simp] theorem State.toIdle_run (s : State) :
    s.toIdle.run = { s.run with seq := .idle, stopMark := false, pendingOffset := none } := by simp [State.toIdle]

@[simp] theorem State.toIdle_play (s : State) :
    s.toIdle.play = { s.play with latched := none, phase := .dwell, tickInRow := 0, waitCount := 0 } := by
  simp [State.toIdle]

@[simp] theorem State.toIdle_timebase (s : State) : s.toIdle.timebase = s.timebase.stop := by simp [State.toIdle]

@[simp] theorem State.toIdle_lanes (s : State) :
    s.toIdle.lanes.effective = s.lanes.parkStates ∧ s.toIdle.lanes.park = s.lanes.park ∧
    s.toIdle.lanes.parkStates = s.lanes.parkStates ∧ s.toIdle.lanes.active = s.lanes.active := by
  simp [State.toIdle]

/-- What the entry to HALTED leaves (R96). -/
@[simp] theorem State.haltRun_run (s : State) :
    s.haltRun.run = { s.run with seq := .halted, stopMark := false, pendingOffset := none } := by simp [State.haltRun]

@[simp] theorem State.haltRun_timebase (s : State) : s.haltRun.timebase = s.timebase.stop := by simp [State.haltRun]

end Sys2Proof.Machine
end

