-- ==== Sys2Proof/Laws/Requests.lean ====
section
/-! SUPPORT. What each shared operation can do, once, in the terms of Safety: how a bus cycle, a register write and a command are taken,
which flags an operation raises, what a lane request, a latch and a commit leave, and how runs of steps are joined. -/

namespace Sys2Proof.Machine

/-! ### Bus cycles -/

/-- While RESET_N is low no bus cycle is taken (R165). -/
theorem State.busCycle_reset (s : State) (f) (h : s.pins.resetLow = true) : s.busCycle f = s := by
  simp [State.busCycle, h]

/-- A register write while RESET_N is low (R165). -/
theorem State.regWrite_reset (s : State) (f) (h : s.pins.resetLow = true) : s.regWrite f = s := by
  simp [State.regWrite, State.busCycle, h]

/-- A COMMAND write while RESET_N is low (R165). -/
theorem State.command_reset (s : State) (f) (h : s.pins.resetLow = true) : s.command f = s := by
  simp [State.command, State.busCycle, h]

/-- During the sweep a register write is refused with ACCERR (R10). -/
theorem State.regWrite_sweep (s : State) (f) (h : s.pins.resetLow = false) (h2 : s.pm.sweep.isSome = true) : s.regWrite f = s.raise .accErr := by
  simp [State.regWrite, State.busCycle, h, h2]

/-- During the sweep a command is refused with REFUSED_BUSY (R10). -/
theorem State.command_sweep (s : State) (f) (h : s.pins.resetLow = false) (h2 : s.pm.sweep.isSome = true) : s.command f = s.report .refusedBusy := by
  simp [State.command, State.busCycle, h, h2]

/-- A ready part passes a register write to its owner (R166). -/
theorem State.regWrite_ready (s : State) (f) (h : Ready s) : s.regWrite f = f s := by
  simp [State.regWrite, State.busCycle, h.1, h.2]

/-- A ready part passes a command to its owner and reports its outcome (R168, R169). -/
theorem State.command_ready (s : State) (f) (h : Ready s) : s.command f = (f s).1.report (f s).2 := by
  simp [State.command, State.busCycle, h.1, h.2]

/-! ### Flags -/

theorem Event.getLsbD_mask (e e' : Event) (w : Word) : (w ||| e.mask).getLsbD e'.bit = (w.getLsbD e'.bit || decide (e' = e)) := by
  cases e <;> cases e' <;> simp [Event.mask, Event.bit]

/-- Raising sets the one flag (R157). -/
theorem EventUnit.isSet_raise (u : EventUnit) (e e' : Event) : (u.raise e).isSet e' = (u.isSet e' || decide (e' = e)) := Event.getLsbD_mask e e' _

/-- An operation that does nothing raises nothing. -/
theorem raises_refl (s : State) : Raises s s (fun _ => False) := by simp [Raises]

/-- An operation that leaves the event unit raises nothing. -/
theorem raises_of_events {s t : State} {P} (h : t.events = s.events) (hp : ∀ e, ¬ P e) : Raises s t P := by
  simp [Raises, h, hp]

/-- An operation that raises one flag. -/
theorem raises_raise {s t : State} {P : Event → Prop} {e} (h : t.events = s.events.raise e) (hp : ∀ e', P e' ↔ e' = e) : Raises s t P := by
  refine ⟨by simp [h, EventUnit.raise], fun e' => ?_⟩
  rw [h, EventUnit.isSet_raise]; simp [hp]

/-- Two operations raise what either raises. -/
theorem raises_trans {s t u : State} {P Q : Event → Prop} (h : Raises s t P) (h' : Raises t u Q) :
    Raises s u (fun e => P e ∨ Q e) := by
  refine ⟨h'.1.trans h.1, fun e => ?_⟩
  rw [h'.2, h.2]; tauto

/-- The same flags, said another way. -/
theorem raises_congr {s t : State} {P Q : Event → Prop} (h : Raises s t P) (hp : ∀ e, Q e ↔ P e) : Raises s t Q :=
  ⟨h.1, fun e => by rw [h.2, hp]⟩

/-- A cause that holds only under a condition. -/
theorem raises_raiseIf {s : State} {c e} : Raises s (s.raiseIf c e) (fun e' => e' = e ∧ c = true) := by
  cases c
  · exact raises_of_events rfl (by simp)
  · exact raises_raise rfl (by simp)

/-- The flags before may be read in any state with the same event unit. -/
theorem raises_start {s s' t : State} {P} (h : Raises s t P) (he : s'.events = s.events) : Raises s' t P := by
  unfold Raises at *; rw [he]; exact h

/-- The flags after may be read in any state with the same event unit. -/
theorem raises_end {s t t' : State} {P} (h : Raises s t P) (he : t'.events = t.events) : Raises s t' P := by
  unfold Raises at *; rw [he]; exact h

/-! ### Lane requests -/

theorem LaneUnit.pinLevelFrom_getD (v : LaneUnit) (k : Bool) (n : Lane) :
    (v.pinLevelFrom k n).getD k = ((v.driver n).or (uutLevel (v.uut.get n))).getD k := by
  unfold LaneUnit.pinLevelFrom
  cases v.driver n <;> cases uutLevel (v.uut.get n) <;> simp
  cases v.pull n with
  | none => simp
  | some p => dsimp only; split <;> simp_all

/-- After every request of the lane unit the keepers hold as R127 says. -/
theorem LaneUnit.settle_keepersHold (u v : LaneUnit) (free : Nat) : KeepersHold u (u.settle v free) := by
  intro n hn
  rw [LaneUnit.pull_settle] at hn
  have hk : u.keptLevel v free n = u.keeper.get n := by
    unfold LaneUnit.keptLevel
    rw [if_neg]; rintro ⟨h1, h2⟩; rcases hn with h | h
    · exact h h1
    · exact h2 h
  rw [LaneUnit.keeper_settle, hk, LaneUnit.pinLevelFrom_getD, LaneUnit.driver_settle]
  simp

/-- One request that changes no setting. -/
theorem State.setLanes_take (s : State) (f : LaneUnit → LaneUnit) (st : Lanes LaneState)
    (h1 : (f s.lanes).effective = st) (h2 : (f s.lanes).park = s.lanes.park) (h3 : (f s.lanes).term = s.lanes.term)
    (h4 : (f s.lanes).uut = s.lanes.uut) (h5 : (f s.lanes).active = s.lanes.active) (h6 : (f s.lanes).sample = s.lanes.sample) :
    LanesTake s.lanes (s.setLanes f).lanes st := by
  refine ⟨?_, ?_, ?_, ?_, ?_, ?_, LaneUnit.settle_keepersHold _ _ _, State.setLanes_keepersFollow s f⟩ <;> simp [*]

/-- A park request (R129). -/
theorem State.parkLanes_take (s : State) : LanesTake s.lanes s.parkLanes.lanes s.lanes.parkStates := by
  apply State.setLanes_take <;> simp

/-- A hold request (R131). -/
theorem State.holdLanes_take (s : State) : LanesTake s.lanes s.holdLanes.lanes (Lanes.ofFn fun n => (s.lanes.effective.get n).held) := by
  apply State.setLanes_take <;> simp [LaneUnit.holdAll]

/-- A latch request (R125). -/
theorem State.latchLanes_take (s : State) (v) : LanesTake s.lanes (s.latchLanes v).lanes v := by
  apply State.setLanes_take <;> simp

/-! ### The latch and the commit -/

theorem CellCode.resolve_eq_stateOf (c : CellCode) (p) : c.resolve p = stateOf c p := by cases c <;> rfl

/-- All that a latch does (R104). -/
theorem State.latchRow_latched (s : State) (r : RowNum) (v) : Latched s (s.latchRow r v) r v ∧
    Raises s (s.latchRow r v) (fun e => e = .mark ∧ (s.pm.rows.attributes r).mark = true) ∧
    SameBut [.run, .play, .lanes, .events, .free] s (s.latchRow r v) := by
  refine ⟨⟨by simp, ?_, ?_⟩, ?_, ?_⟩
  · simp only [State.latchRow_frame]
    unfold State.latchRow Memory.cell Memory.attributes; dsimp only
    generalize s.pm.rows.row r = row
    obtain ⟨c, d, w, m⟩ := row
    cases m <;> simp [State.pulseMark, Playback.latch, resolveRow, CellCode.resolve_eq_stateOf]
  · have h : (s.latchRow r v).lanes = (s.latchLanes (resolveRow v (s.pm.rows.row r).cells)).lanes := by
      unfold State.latchRow; dsimp only
      split <;> simp [State.pulseMark, State.raise]
    rw [h]
    have := State.latchLanes_take s (resolveRow v (s.pm.rows.row r).cells)
    simpa [resolveRow, CellCode.resolve_eq_stateOf, Memory.cell] using this
  · unfold State.latchRow; dsimp only
    split
    · rename_i h; exact raises_raise (e := .mark) (by simp [State.pulseMark]) (by simp [Memory.attributes, h])
    · rename_i h; exact raises_of_events (by simp) (fun e he => h he.2)
  · intro p hp; cases p <;> simp [Part.same] at hp ⊢

theorem codeAfter_nil (r n b) : codeAfter [] r n b = b := rfl

theorem codeAfter_cons (t ts r n b) : codeAfter (t :: ts) r n b = codeAfter ts r n (if t.row = r ∧ t.lane = n then t.code else b) := by
  unfold codeAfter
  simp only [List.reverse_cons, List.find?_append]
  cases (ts.reverse.find? _) with
  | some x => simp
  | none => simp only [Option.none_or, List.find?_cons, List.find?_nil]; by_cases h : t.row = r ∧ t.lane = n <;> simp only [h, decide_false] <;> rfl

theorem codeAfter_append (ts us r n b) : codeAfter (ts ++ us) r n b = codeAfter us r n (codeAfter ts r n b) := by
  induction ts generalizing b with
  | nil => rfl
  | cons t ts ih => rw [List.cons_append, codeAfter_cons, codeAfter_cons, ih]

theorem recordAfter_cons (w ws r b) : recordAfter (w :: ws) r b = recordAfter ws r (if w.1 = r then w.2 else b) := by
  unfold recordAfter
  simp only [List.reverse_cons, List.find?_append]
  cases (ws.reverse.find? _) with
  | some x => simp
  | none => simp [List.find?_cons]; by_cases h : w.1 = r <;> simp [h]

/-- Cell writes taken in order leave each cell with its last write (R52). -/
theorem Memory.cell_writeCells (m : Memory) (ts r n) : (m.writeCells ts).cell r n = codeAfter ts r n (m.cell r n) := by
  induction ts generalizing m with
  | nil => rfl
  | cons t ts ih =>
    rw [Memory.writeCells_cons, ih, codeAfter_cons, Memory.cell_writeCell]
    congr 1
    by_cases h : t.row = r ∧ t.lane = n
    · simp [h.1, h.2]
    · rw [if_neg h, if_neg (fun h' => h ⟨h'.1.symm, h'.2.symm⟩)]

/-- The cell writes of some entries, in queue order (R52). -/
def entryCells (es : List Entry) : List Triple :=
  es.flatMap fun e => match e with | .cells ts => ts | .attributes _ _ => []

/-- The attribute writes of some entries, in queue order (R52). -/
def entryRecords (es : List Entry) : List (RowNum × Attributes) :=
  es.flatMap fun e => match e with | .cells _ => [] | .attributes r a => [(r, a)]

/-- What entries taken in queue order leave in a cell (R52). -/
theorem Memory.cell_foldl_apply (m : Memory) (es : List Entry) (r n) : (es.foldl Memory.apply m).cell r n = codeAfter (entryCells es) r n (m.cell r n) := by
  induction es generalizing m with
  | nil => rfl
  | cons e es ih =>
    rw [List.foldl_cons, ih]
    cases e with
    | cells ts =>
      show codeAfter (entryCells es) r n ((m.writeCells ts).cell r n) = codeAfter (ts ++ entryCells es) r n _
      rw [codeAfter_append, Memory.cell_writeCells]
    | attributes q a =>
      show codeAfter (entryCells es) r n ((m.writeAttributes q a).cell r n) = codeAfter (entryCells es) r n _
      simp

/-- What entries taken in queue order leave in a record (R52). -/
theorem Memory.attributes_foldl_apply (m : Memory) (es : List Entry) (r) : (es.foldl Memory.apply m).attributes r = recordAfter (entryRecords es) r (m.attributes r) := by
  induction es generalizing m with
  | nil => rfl
  | cons e es ih =>
    rw [List.foldl_cons, ih]
    cases e with
    | cells ts =>
      show recordAfter (entryRecords es) r ((m.writeCells ts).attributes r) = recordAfter (entryRecords es) r _
      simp
    | attributes q a =>
      show recordAfter (entryRecords es) r ((m.writeAttributes q a).attributes r) = recordAfter ((q, a) :: entryRecords es) r _
      rw [recordAfter_cons, Memory.attributes_writeAttributes]
      congr 1
      by_cases h : r = q
      · simp [h]
      · rw [if_neg h, if_neg (fun h' => h h'.symm)]

theorem cellWrites_eq (bs : List Batch) : cellWrites bs = entryCells (bs.flatMap fun b => b.entries) := by
  unfold cellWrites entryCells; exact List.flatMap_assoc.symm

theorem recordWrites_eq (bs : List Batch) : recordWrites bs = entryRecords (bs.flatMap fun b => b.entries) := by
  unfold recordWrites entryRecords; exact List.flatMap_assoc.symm

theorem entryWrites_eq (es : List Entry) : (es.map Entry.writes).sum = (entryCells es).length + (entryRecords es).length := by
  induction es with
  | nil => rfl
  | cons e es ih =>
    cases e with
    | cells ts => simp [entryCells, entryRecords, Entry.writes] at *; omega
    | attributes q a => simp [entryCells, entryRecords, Entry.writes] at *; omega

/-- All that a commit does at the queue and at PM (R51, R52, R64). -/
theorem State.commitPoint_committed (s : State) : Committed s s.commitPoint := by
  by_cases h : s.queue.closed = []
  · rw [State.commitPoint_nil s h]
    refine ⟨?_, ?_, rfl, rfl, ?_, ?_⟩
    · intro r n; rw [h]; rfl
    · intro r; rw [h]; rfl
    · simp [h]
    · rw [← h]
  · obtain ⟨h1, h2, h3⟩ := State.commitPoint_cons s h
    refine ⟨?_, ?_, by simp, by simp, ?_, ?_⟩
    · intro r n; rw [h1, Memory.cell_foldl_apply, cellWrites_eq]; rfl
    · intro r; rw [h1, Memory.attributes_foldl_apply, recordWrites_eq]; rfl
    · rw [h2, if_neg h, cellWrites_eq, recordWrites_eq]
      simp only [UpdateQueue.commitCycles, entryWrites_eq]; rfl
    · unfold State.commitPoint
      cases hc : s.queue.closed with
      | nil => exact absurd hc h
      | cons b bs => rfl

/-- A commit raises COMMIT once if a batch was waiting (R51). -/
theorem State.commitPoint_raises (s : State) : Raises s s.commitPoint (fun e => e = .commit ∧ s.queue.closed ≠ []) := by
  by_cases h : s.queue.closed = []
  · rw [State.commitPoint_nil s h]; exact raises_of_events rfl (by simp [h])
  · exact raises_raise (State.commitPoint_cons s h).2.2 (by simp [h])

/-! ### Layouts and steps -/

/-- The model's check of a layout is the one of R77. -/
theorem RunControl.layoutValid_iff (r : RunControl) : r.layoutValid = true ↔ ValidLayout r := by
  unfold RunControl.layoutValid ValidLayout RunControl.layoutEnd RunControl.tailStart RunControl.loopStart
  rw [Bool.and_eq_true, Bool.and_eq_true, decide_eq_true_iff, decide_eq_true_iff, decide_eq_true_iff, and_assoc]

/-- One more step after k of them. -/
theorem steps_snoc (k : Nat) (s t : State) (h : steps k s = .next t) : steps (k+1) s = step t := by
  induction k generalizing s with
  | zero => simp only [steps] at h; cases h; simp only [steps]; cases hs : step t <;> rfl
  | succ k ih =>
    unfold steps at h ⊢
    cases hs : step s with
    | next u => rw [hs] at h; exact ih u h
    | fault r => rw [hs] at h; cases h
    | refused r => rw [hs] at h; cases h

end Sys2Proof.Machine
end

