-- ==== Sys2Proof/WellFormed.lean ====
section
/-! DEFINITION. Which terms of `Instr` are commands of the opcode table. -/

namespace Sys2Proof

/-- UNKNOWN_COMMAND carries a code that is not a command (R168). Every other row's operands may take every value of their types:
the checks the rules make on them are part of the commands' effects. -/
def Instr.wellFormed : Instr → Bool
  | .unknownCommand code => (commandOfCode code).isNone
  | _ => true

end Sys2Proof
end

