-- ==== Sys2Proof/Tests/Slice0.lean ====
section
/-! SUPPORT. Tests: the smoke test of `Instr.wellFormed`, one or two small steps for each command with the result the manual gives,
and for each obligation that has hypotheses a witness: concrete states and operands that meet them together, clause by clause, at the
ends of the ranges named. -/

namespace Sys2Proof.Tests

open Sys2Proof Sys2Proof.Machine

/-! ### Small states -/

/-- The part in IDLE with the sweep complete. -/
def idle : Machine.State := { Machine.State.reset with pm := ⟨[], none, none, []⟩ }

/-- The part held in reset. -/
def held : Machine.State :=
  { idle with pins := { idle.pins with resetLow := true }, lanes := { idle.lanes with active := false } }

/-- The window of the table of R26: rows 10 to 11, lanes 2 to 4. -/
def small (traversal : Traversal) (direction : Direction) (plane : Plane) (target : Target) (cells : BitVec 3) : Window :=
  ⟨10, 11, 2, 4, ⟨traversal, direction, plane, target, cells⟩⟩

/-- `idle` with a window in effect, the cursor at its origin. -/
def windowed (w : Window) : Machine.State := { idle with window := { idle.window with eff := w, cursor := w.origin } }

/-- A fill of rows 10 to 11, lanes 2 to 4, with DRIVE_HIGH, at row 10. -/
def fill : Fill := ⟨10, 11, 2, 4, .ascending, .cells .driveHigh, 10, false⟩

/-- `idle` with a fill in progress. -/
def filling (f : Fill) : Machine.State := { idle with pm := { idle.pm with fill := some f } }

/-- `filling` between two row writes, while PM carries out a commit application of 3 cycles. -/
def committing (f : Fill) : Machine.State := { idle with pm := { idle.pm with fill := some f, commits := [3] } }

/-- The batch numbered 7, with one cell write, L3 of row 20 to DRIVE_LOW, and one record. -/
def batch : Batch := ⟨7, [.cells [⟨20, 3, .driveLow⟩], .attributes 20 ⟨9, true, false⟩]⟩

/-- `idle` with a queue. -/
def queued (closed : List Batch) (openBatch : Option OpenBatch) : Machine.State := { idle with queue := ⟨closed, openBatch, 9⟩ }

/-- A layout with B = 100, H = 2, L = 3, T = 1 and E = 1. -/
def layout : RunControl :=
  { RunControl.reset with base := 100, headLen := 2, loopLen := 3, tailLen := 1, entryOffset := 1 }

/-- A state of a run in one region, at one row, dwelling with `dwellLess1` and all lanes released. -/
def playing (seq : SeqState) (r : RowNum) (dwellLess1 : BitVec 8) : Machine.State :=
  { idle with
    run := { layout with seq := seq, curRow := r }
    timebase := { Timebase.reset with counting := true }
    play := { Playback.reset with latched := some ⟨r, Lanes.all .released, dwellLess1, false⟩ } }

/-- A run with D = `division` of 1 or 2, P = `period` + 1, and its counts. -/
def counting (division : Nat) (period : Word) (prescales periods : Nat) : Machine.State :=
  { playing .loop 102 0 with timebase := { Timebase.reset with
      counting := true
      prescale := BitVec.ofNat 3 (division - 1)
      period := period
      prescaleCount := prescales
      periodCount := periods } }

/-- A state of a run whose latched row, of dwell 1, has ended. -/
def ended (seq : SeqState) (r : RowNum) (passRows : Nat) : Machine.State :=
  { playing seq r 0 with
    run := { (playing seq r 0).run with passRows := passRows }
    play := { (playing seq r 0).play with tickInRow := 1 } }

/-- The row latched in `playing` and `ended`. -/
def rowOf (r : RowNum) : LatchedRow := ⟨r, Lanes.all .released, 0, false⟩

/-- A wait row, with L0 expecting high, at row 102 of LOOP, after `count` unmatched ticks, L0 sampled low. -/
def waiting (limit count : Word) : Machine.State :=
  { playing .loop 102 0 with
    play := { Playback.reset with
      latched := some ⟨102, (Lanes.all .released).set 0 .expectingHigh, 0, true⟩
      phase := .waiting
      waitLimit := limit
      waitCount := count
      checkMismatch := (Lanes.all false).set 0 true } }

/-- The row of `playing` with L0 expecting high, so that a low L0 mismatches. -/
def expecting (policy : FailPolicy) : Machine.State :=
  { playing .loop 102 0 with
    play := { Playback.reset with latched := some ⟨102, (Lanes.all .released).set 0 .expectingHigh, 0, false⟩ }
    compare := { CompareUnit.reset with policy := policy } }

/-- `idle` with the strobes last seen, those on the lines now, and the address and data on the lines. -/
def onLines (seen now : Strobes) (addr : Addr) (data : Word) : Machine.State :=
  { idle with bus := .resetWith seen, pins := { idle.pins with lines := ⟨now, addr, data⟩ } }

/-- The levels of a write strobe, of a read strobe, and of CS_N alone. -/
def writing : Strobes := ⟨true, false, true⟩
def reading : Strobes := ⟨true, true, false⟩
def chosen : Strobes := ⟨true, false, false⟩

/-- What a function of the next state is, if the command answers one. -/
def after {α : Type} (c : Instr) (s : Machine.State) (f : Machine.State → α) : Option α :=
  match exec c s with
  | .next t => some (f t)
  | .fault _ => none
  | .refused _ => none

/-! ### Well-formedness -/

theorem test_wellFormed_refuses_a_command_code : (Instr.unknownCommand 0x0001).wellFormed = false := by decide

theorem test_wellFormed_takes_an_unknown_code : (Instr.unknownCommand 0x0101).wellFormed = true := by decide

/-! ### The queue and the resets -/

/-- First in, first out (log entry 1). -/
theorem test_step_takes_the_front :
    (match step { idle with pending := [.logPop, .logClear] } with
     | .next t => some (t.bus.outcome, t.pending)
     | _ => none) = some (.empty, [.logClear]) := by decide

/-- R176, R171: STATUS reads 0x0040 from the release on. -/
theorem test_powerOn : after .powerOn (windowed (small .laneFirst .ascending .cells .direct 1))
    (fun t => (t.regWord 0x02, t.window == .reset)) = some (0x0040, true) := by decide

theorem test_resetNAssert : after .resetNAssert (playing .loop 102 0) (fun t => (t.runningPin, t.run.seq)) =
    some (false, .idle) := by decide

theorem test_resetNRelease : after .resetNRelease held (fun t => (t.regWord 0x02, t.pm.sweep)) =
    some (0x0040, some 0) := by decide

/-- R177: the serial goes on from the value it held, and STROBE reads 0x0100. -/
theorem test_softReset : after .softReset { playing .loop 102 0 with bus := { idle.bus with serial := 15 } }
    (fun t => (t.regWord 0x04, t.regWord 0x02, t.regWord 0x23)) = some (0x0000, 0x0000, 0x0100) := by decide

/-! ### Pattern memory -/

/-- R11: INITDONE is bit 15 of EVENTS. -/
theorem test_sweepRowWrite_last : after .sweepRowWrite { State.reset with pm := ⟨[(4095, ⟨Lanes.all .keep, ⟨0, false, false⟩⟩)], some 4095, none, []⟩ }
    (fun t => (t.pm.rows, t.pm.sweep, t.regWord 0x05)) = some ([], none, 0x8000) := by decide

/-- R13: the lanes 2 to 4 of the row and no other. -/
theorem test_fillRowWrite : after .fillRowWrite (filling fill)
    (fun t => (t.pm.rows.cell 10 4, t.pm.rows.cell 10 5, t.pm.rows.cell 11 4, t.pm.fill.map fun f => f.row)) =
    some (.driveHigh, .release, .release, some 11) := by decide

/-- R13: the last row under DESCENDING is row start; FILLDONE is bit 9. -/
theorem test_fillRowWrite_last : after .fillRowWrite (filling { fill with direction := .descending })
    (fun t => (t.regWord 0x02, t.regWord 0x05)) = some (0x0000, 0x0200) := by decide

theorem test_commitApplicationEnd : after .commitApplicationEnd { idle with pm := ⟨[], none, none, [5, 3]⟩ }
    (fun t => t.pm.commits) = some [3] := by decide

/-- R12: FILL shows in bit 7 of STATUS. -/
theorem test_fill : after .fill (windowed (small .laneFirst .descending .cells .staged 1))
    (fun t => (t.regWord 0x02, t.pm.fill.map fun f => f.row, t.regWord 0x04)) = some (0x0080, some 11, 0x0010) := by decide

/-- R12: 6 is not a cell code: REFUSED_WINDOW. -/
theorem test_fill_invalid : after .fill { idle with window := { idle.window with fillValue := 0xFFFE } }
    (fun t => (t.regWord 0x04, t.pm.fill)) = some (0x0014, none) := by decide

theorem test_fillAbort : after .fillAbort idle (fun t => t.regWord 0x04) = some 0x0015 := by decide

/-- R17: with no row begun the fill ends without writing any further row and without FILLDONE. -/
theorem test_fillAbort_between_rows : after .fillAbort (committing fill)
    (fun t => (t.regWord 0x04, t.regWord 0x02, t.regWord 0x05, t.pm.rows)) = some (0x0010, 0x0000, 0x0000, []) := by decide

/-! ### The access window -/

/-- The table of R26. -/
theorem test_walk_laneFirst : ((small .laneFirst .descending .cells .direct 1).places ⟨11, 2⟩ 6).map (fun p => (p.row.val, p.lane.val)) =
    [(11, 2), (11, 3), (11, 4), (10, 2), (10, 3), (10, 4)] := by decide

theorem test_walk_rowFirst : ((small .rowFirst .ascending .cells .direct 1).places ⟨10, 2⟩ 6).map (fun p => (p.row.val, p.lane.val)) =
    [(10, 2), (11, 2), (10, 3), (11, 3), (10, 4), (11, 4)] := by decide

/-- R21: 4096 is not a row: REFUSED_WINDOW. -/
theorem test_setWindow_refused : after .setWindow { idle with window := { idle.window with
    held := { idle.window.held with rowEnd := 4096 } } } (fun t => (t.regWord 0x04, t.window.eff.rowEnd)) =
    some (0x0014, 4095) := by decide

/-- R23: under DESCENDING the origin is the row end. -/
theorem test_setWindow_descending : after .setWindow { idle with window := { idle.window with
    held := { idle.window.held with mode := { WindowMode.reset with direction := .descending } } } }
    (fun t => (t.regWord 0x0C, t.regWord 0x0D)) = some (4095, 0) := by decide

theorem test_seek : after .seek { windowed (small .laneFirst .ascending .cells .direct 1) with
    window := ⟨HeldWindow.mk 0 0 0 0 .reset, small .laneFirst .ascending .cells .direct 1, ⟨11, 4⟩, 0⟩ }
    (fun t => (t.regWord 0x0C, t.regWord 0x0D, t.regWord 0x04)) = some (10, 2, 0x0010) := by decide

/-- R20: WIN_MODE keeps its fields, its other bits read 0. -/
theorem test_windowRegisterWrite : after (.windowRegisterWrite .mode 0xFFFF) idle
    (fun t => (t.regWord 0x0B, t.window.eff.mode)) = some (0x007F, .reset) := by decide

/-- R27, R29, R30: four places from the origin under LANE_FIRST; an invalid code leaves its cell; CODEERR is bit 14. -/
theorem test_dataWrite_direct : after (.dataWrite 0x0E08) (windowed (small .laneFirst .ascending .cells .direct 4))
    (fun t => (t.pm.rows.cell 10 2, t.pm.rows.cell 10 3, t.pm.rows.cell 10 4, t.pm.rows.cell 11 2, t.window.cursor, t.regWord 0x05)) =
    some (.driveLow, .driveHigh, .driveLow, .release, ⟨11, 3⟩, 0x4000) := by decide

/-- R34, R43: the first staged write opens a batch; PM is not written. -/
theorem test_dataWrite_staged : after (.dataWrite 0x0001) (windowed (small .laneFirst .ascending .cells .staged 1))
    (fun t => (t.regWord 0x10, t.regWord 0x11, t.pm.rows)) = some (0x4001, 0x0100, []) := by decide

/-- R32: five RELEASE codes, 3 in each three bits. -/
theorem test_dataRead_cells : after .dataRead (windowed (small .laneFirst .ascending .cells .direct 5))
    (fun t => (t.bus.readWord, t.window.cursor)) = some (some 0x36DB, ⟨11, 4⟩) := by decide

/-- R28: during a fill a read returns 0x0000 and raises ACCERR, bit 13. -/
theorem test_dataRead_refused : after .dataRead (filling fill) (fun t => (t.bus.readWord, t.regWord 0x05, t.window.cursor)) =
    some (some 0, 0x2000, ⟨0, 0⟩) := by decide

/-! ### Staged updates -/

/-- R48: a damaged batch is dropped; BATCHDROP is bit 11, DROPPED is 6. -/
theorem test_closeBatch_damaged : after .closeBatch (queued [batch] (some ⟨8, batch.entries, true⟩))
    (fun t => (t.regWord 0x04, t.regWord 0x05, t.regWord 0x10)) = some (0x0016, 0x0800, 0x0082) := by decide

theorem test_closeBatch : after .closeBatch (queued [] (some ⟨8, batch.entries, false⟩))
    (fun t => (t.regWord 0x04, t.regWord 0x10)) = some (0x0010, 0x0082) := by decide

theorem test_discardBatch : after .discardBatch (queued [batch] (some ⟨8, batch.entries, false⟩))
    (fun t => (t.regWord 0x04, t.regWord 0x10, t.regWord 0x11)) = some (0x0010, 0x0082, 0x0009) := by decide

theorem test_flushQueue : after .flushQueue (queued [batch] (some ⟨8, batch.entries, false⟩))
    (fun t => (t.regWord 0x04, t.regWord 0x10, t.regWord 0x11)) = some (0x0010, 0x0000, 0x0009) := by decide

/-- R54, R64: one triple and one record take 3 cycles; COMMIT is bit 12. -/
theorem test_commit : after .commit (queued [batch] none)
    (fun t => (t.pm.rows.cell 20 3, t.pm.rows.attributes 20, t.pm.commits, t.regWord 0x05)) =
    some (.driveLow, ⟨9, true, false⟩, [3], 0x1000) := by decide

theorem test_commit_in_a_run : after .commit { playing .loop 102 0 with queue := ⟨[batch], none, 8⟩ }
    (fun t => (t.regWord 0x04, t.regWord 0x10)) = some (0x0011, 0x0082) := by decide

/-! ### Run control -/

/-- R81, R82: with H = 2 the run starts in HEAD at row B. -/
theorem test_start : after .start { idle with run := layout } (fun t => (t.regWord 0x02, t.regWord 0x1B, t.runningPin)) =
    some (0x0002, 100, true) := by decide

/-- R77: the reset layout has L = 0: REFUSED_LAYOUT. -/
theorem test_start_refused : after .start idle (fun t => t.regWord 0x04) = some 0x0013 := by decide

theorem test_arm : after .arm { idle with run := layout } (fun t => (t.regWord 0x02, t.runningPin)) = some (0x0001, false) := by decide

/-- R92: stop pending is bit 4 of STATUS; LOOP is 3. -/
theorem test_stop : after .stop (playing .loop 102 0) (fun t => t.regWord 0x02) = some 0x0013 := by decide

theorem test_abort : after .abort (playing .tail 105 0) (fun t => (t.regWord 0x02, t.regWord 0x1B, t.regWord 0x05)) =
    some (0x0000, 105, 0x0000) := by decide

/-- R98: a value of L is ignored with ACCERR; a lower one becomes pending, bit 5 of STATUS. -/
theorem test_entryOffsetWrite : after (.entryOffsetWrite 2) (playing .loop 102 0)
    (fun t => (t.regWord 0x02, t.regWord 0x18)) = some (0x0023, 1) := by decide

theorem test_entryOffsetWrite_refused : after (.entryOffsetWrite 3) (playing .loop 102 0)
    (fun t => (t.regWord 0x02, t.regWord 0x05)) = some (0x0003, 0x2000) := by decide

/-- R99: with a pass count of 3 a target of 4 is taken and a target of 3 is not. -/
theorem test_passTargetWrite : after (.passTargetWrite 4) { playing .loop 102 0 with run := { (playing .loop 102 0).run with passCount := 3 } }
    (fun t => (t.regWord 0x19, t.run.targetInForce)) = some (4, 4) := by decide

theorem test_passTargetWrite_refused : after (.passTargetWrite 3) { playing .loop 102 0 with run := { (playing .loop 102 0).run with passCount := 3 } }
    (fun t => (t.regWord 0x19, t.regWord 0x05)) = some (0, 0x2000) := by decide

theorem test_layoutWrite : after (.layoutWrite .tailLen 0xFFFF) idle (fun t => t.regWord 0x17) = some 0xFFFF := by decide

theorem test_runConfigWrite : after (.runConfigWrite 0xFFFF) (playing .loop 102 0) (fun t => t.regWord 0x1C) = some 0x0001 := by decide

/-- R84: a rising edge starts an armed run; the serial does not advance. -/
theorem test_trigEdge : after (.trigEdge true) { idle with run := { layout with seq := .armed } }
    (fun t => (t.regWord 0x02, t.regWord 0x04)) = some (0x0002, 0x0000) := by decide

/-- R84: in LOOP the edge raises TRIGIGN, bit 7. -/
theorem test_trigEdge_ignored : after (.trigEdge true) (playing .loop 102 0) (fun t => (t.regWord 0x02, t.regWord 0x05)) =
    some (0x0003, 0x0080) := by decide

/-- R88: the last row of a pass with E = 1 is loop row 0; the next pass begins at loop row 1; PASS is bit 2. -/
theorem test_rowEnd_boundary : after .rowEnd { playing .loop 102 0 with
      run := { (playing .loop 102 0).run with passRows := 2 }
      play := { (playing .loop 102 0).play with tickInRow := 1 } }
    (fun t => (t.regWord 0x1A, t.regWord 0x1B, t.regWord 0x05, t.passmarkPin)) = some (1, 103, 0x0004, true) := by decide

/-- R91: the end of the last tail row ends the run with DONE, bit 0. -/
theorem test_rowEnd_tail : after .rowEnd { playing .tail 105 0 with play := { (playing .tail 105 0).play with tickInRow := 1 } }
    (fun t => (t.regWord 0x02, t.regWord 0x05, t.regWord 0x1B)) = some (0x0000, 0x0001, 105) := by decide

theorem test_passmarkPulseEnd : after .passmarkPulseEnd { playing .loop 102 0 with run := { (playing .loop 102 0).run with passmarkCycles := 2 } }
    (fun t => t.passmarkPin) = some false := by decide

theorem test_markPulseEnd : after .markPulseEnd { playing .loop 102 0 with play := { (playing .loop 102 0).play with markCycles := 2 } }
    (fun t => t.markPin) = some false := by decide

/-! ### The timebase and the rows -/

/-- R71: TB_PRESCALE keeps its three bits. -/
theorem test_timebaseWrite : after (.timebaseWrite .prescale 0xFFFF) idle (fun t => t.regWord 0x20) = some 0x0007 := by decide

theorem test_gateChange : after (.gateChange true) idle (fun t => t.pins.gate) = some true := by decide

/-- R119: 257 is ignored with ACCERR. -/
theorem test_strobeWrite : after (.strobeWrite 257) idle (fun t => (t.regWord 0x23, t.regWord 0x05)) = some (0x0100, 0x2000) := by decide

theorem test_waitLimitWrite : after (.waitLimitWrite 0xFFFF) idle (fun t => t.regWord 0x24) = some 0xFFFF := by decide

/-- R64, R86, R109: the only tick of a row of dwell 1 carries stamp 1 and brings the next row. -/
theorem test_tick : after .tick (playing .head 100 0) (fun t => (t.timebase.stamp, t.regWord 0x1B)) = some (1, 101) := by decide

/-- R139, R142, R145: a fail at the strobe of row 102 in pass 1; under HALT the row does not end; FAIL is bit 4, HALT bit 1. -/
theorem test_tick_fail : after .tick (expecting .halt)
    (fun t => (t.regWord 0x02, t.regWord 0x05, t.regWord 0x33, t.regWord 0x34, t.regWord 0x35, t.regWord 0x38)) =
    some (0x0005, 0x0012, 102, 1, 0x0001, 1) := by decide

/-- R114: under CONTINUE the timed-out row counts its dwell; LOG_INFO shows WAIT_TIMEOUT in LOOP with a pass. -/
theorem test_waitTimeout : after .waitTimeout (waiting 5 5) (fun t => (t.play.phase, t.regWord 0x32)) =
    some (.dwell, 0x000D) := by decide

/-! ### Lanes -/

/-- R128: in IDLE the lanes are parked at once, L0 low and L1 high. -/
theorem test_parkWrite : after (.parkWrite .a 0x0009) idle
    (fun t => (t.regWord 0x28, t.regWord 0x2E, t.lanes.effective.get 1)) = some (0x0009, 0x0003, .drivenHigh) := by decide

/-- R126: a field of 3 refuses the write whole. -/
theorem test_termWrite : after (.termWrite .b 0xC001) idle (fun t => (t.regWord 0x2B, t.regWord 0x05)) = some (0x0000, 0x2000) := by decide

theorem test_uutLaneDriveChange : after (.uutLaneDriveChange 15 .high) idle (fun t => (t.regWord 0x2D, t.lanes.keeper.get 15)) =
    some (0x8000, true) := by decide

/-- R127: a lane with PULL_UP reads high once the pulled level is reached. -/
theorem test_pulledLevelReached : after (.pulledLevelReached 15) { idle with lanes := { idle.lanes with
    term := idle.lanes.term.set 15 .pullUp } } (fun t => t.regWord 0x2D) = some 0x8000 := by decide

/-! ### Compare unit, events and host bus -/

theorem test_logPop : after .logPop idle (fun t => t.regWord 0x04) = some 0x0015 := by decide

theorem test_logClear : after .logClear { idle with compare := { CompareUnit.reset with overflow := 7 } }
    (fun t => (t.regWord 0x31, t.regWord 0x04)) = some (0, 0x0010) := by decide

theorem test_compareMaskWrite : after (.compareMaskWrite 0x8001) idle (fun t => t.regWord 0x2C) = some 0x8001 := by decide

theorem test_failPolicyWrite : after (.failPolicyWrite 0xFFFE) idle (fun t => t.regWord 0x39) = some 0x0002 := by decide

theorem test_eventsWrite : after (.eventsWrite 0x8001) { idle with events := ⟨0x8003, 0x8000⟩ }
    (fun t => (t.regWord 0x05, t.irqLow)) = some (0x0002, false) := by decide

theorem test_eventEnableWrite : after (.eventEnableWrite 0x8000) { idle with events := ⟨0x8000, 0⟩ } (fun t => t.irqLow) =
    some true := by decide

/-- R168: the code is not masked. -/
theorem test_unknownCommand : after (.unknownCommand 0x0101) idle (fun t => (t.regWord 0x04, t.run.seq)) =
    some (0x0017, .idle) := by decide

/-- R166: a write to a read-only register is ignored without event; one to COMMAND is a command. -/
theorem test_registerWrite : after (.registerWrite 0x00 0) idle (fun t => (t.regWord 0x00, t.regWord 0x05)) =
    some (0xEF41, 0x0000) := by decide

theorem test_registerWrite_command : after (.registerWrite 0x03 0x0002) { idle with run := layout } (fun t => t.run.seq) =
    some .armed := by decide

/-! ### The bus lines (R165) -/

theorem test_wr_rise_writes : ((onLines writing chosen 0x24 7).followStrobe .wr).play.waitLimit = 7 := by decide

theorem test_wr_rise_cs_high : ((onLines ⟨false, false, true⟩ .high 0x24 7).followStrobe .wr).play.waitLimit = 0 := by decide

/-- A rise of WR_N with RD_N low is a write and begins no read. -/
theorem test_wr_rise_rd_low :
    (let t := (onLines ⟨true, true, true⟩ reading 0x24 7).followStrobe .wr; (t.play.waitLimit, t.bus.driven)) = (7, none) := by
  decide

theorem test_rd_fall_reads : ((onLines chosen reading 0x00 0).followStrobe .rd).bus.driven = some 0xEF41 := by decide

/-- A read of DATA moves the cursor and drives the RELEASE code. -/
theorem test_cs_fall_reads_data :
    (let t := (onLines ⟨false, true, false⟩ reading 0x0E 0).followStrobe .cs; (t.bus.driven, t.window.cursor)) =
      (some 3, ⟨0, 1⟩) := by decide

theorem test_wr_fall_stops_the_drive :
    ({ onLines reading ⟨true, true, true⟩ 0x00 0 with bus := { HostBus.resetWith reading with driven := some 5 } }.followStrobe
      .wr).bus.driven = none := by decide

/-- R176: with RESET_N low no register answers. -/
theorem test_no_read_in_reset : held.readReg 0x00 = none ∧ idle.readReg 0x00 = some 0xEF41 := by decide

/-! ### Witnesses of the hypotheses of the obligations -/

theorem witness_StepTakesTheFrontCommand : { idle with pending := [.logPop, .logClear] }.pending = [.logPop, .logClear] := rfl

/-- A cycle of the sweep; a cycle of a run at the end of its period, of its division, and short of both. -/
theorem witness_EmptyQueueCountsOneCycle :
    (held.pending = [] ∧ held.pins.resetLow = true) ∧
    (idle.pending = [] ∧ Ready idle ∧ BusQuiet idle ∧ idle.takesCycles = false) ∧
    (let s := Machine.State.reset
     s.pending = [] ∧ s.pins.resetLow = false ∧ BusQuiet s ∧ s.pm.sweep.isSome = true ∧ s.takesCycles = false ∧
       s.pm.commits = []) ∧
    (let s := counting 2 1 1 1
     s.pending = [] ∧ Ready s ∧ BusQuiet s ∧ s.takesCycles = true ∧ s.pm.commits = [] ∧
       s.timebase.prescaleCount + 1 = 2 ^ s.timebase.prescale.toNat ∧ s.timebase.periodCount + 1 = s.timebase.period.toNat + 1) ∧
    (counting 2 1 0 1).timebase.prescaleCount + 1 < 2 ^ (counting 2 1 0 1).timebase.prescale.toNat ∧
    (counting 2 1 1 0).timebase.periodCount + 1 < (counting 2 1 1 0).timebase.period.toNat + 1 :=
  ⟨⟨rfl, rfl⟩, ⟨rfl, ⟨rfl, rfl⟩, rfl, rfl⟩, ⟨rfl, rfl, rfl, rfl, rfl, rfl⟩, ⟨rfl, ⟨rfl, rfl⟩, rfl, rfl, rfl, rfl, rfl⟩, by decide,
    by decide⟩

theorem witness_ReleaseBeginsTheSweep :
    (held.pins.resetLow = true ∧ held.lanes.active = false) ∧ idle.pins.resetLow = false := ⟨⟨rfl, rfl⟩, rfl⟩

theorem witness_HeldInResetNothingIsTaken : held.pins.resetLow = true ∧ Instr.request .dataRead ≠ .event :=
  ⟨rfl, by decide⟩

/-- A fill that may have a row begun, one between two rows, and the last row of a fill that is ending. -/
theorem witness_SoftResetTakesEveryBlock :
    (Ready (filling fill) ∧ (filling fill).pm.fill = some fill) ∧ Ready (committing fill) ∧
    (let f := { fill with row := 11, ending := true }
     Ready (filling f) ∧ ∃ t, exec .softReset (filling f) = .next t ∧ t.pm.fill = some f ∧ t.pm.commits = []) :=
  ⟨⟨⟨rfl, rfl⟩, rfl⟩, ⟨rfl, rfl⟩, ⟨rfl, rfl⟩, _, rfl, rfl, rfl⟩

theorem witness_RegistersReadTheirResetColumn :
    (0x23, 0x0100) ∈ resetColumn ∧ held.pins.resetLow = true ∧ Ready idle ∧ idle.pm.fill = none :=
  ⟨by decide, rfl, ⟨rfl, rfl⟩, rfl⟩

theorem witness_DuringTheSweepRequestsAreRefused :
    (Machine.State.reset.pins.resetLow = false ∧ Machine.State.reset.pm.sweep.isSome = true) ∧
    Instr.request .softReset = .command ∧ Instr.request (.unknownCommand 0x0101) = .command ∧
    Instr.request (.windowRegisterWrite .mode 0) = .registerWrite ∧
    registerRow 0x00 0xFFFF = none ∧ registerRow 0x3F 0 = none ∧ (0x2D : Addr) ≠ 0x02 ∧ (0x2D : Addr) ≠ 0x0E ∧
    Machine.State.reset.run.seq = .idle ∧ Machine.State.reset.events.enables = 0 ∧
    ∃ t, exec .sweepRowWrite Machine.State.reset = .next t :=
  ⟨⟨rfl, rfl⟩, rfl, rfl, rfl, by decide, by decide, by decide, by decide, rfl, rfl, _, rfl⟩

theorem witness_SweepRowWriteClearsItsRow :
    Machine.State.reset.pm.sweep = some 0 ∧ { idle with pm := ⟨[], some 4095, none, []⟩ }.pm.sweep = some 4095 := ⟨rfl, rfl⟩

theorem witness_SweepLeavesEveryRowReset :
    (let s := { Machine.State.reset with
      pm := ⟨[(4095, ⟨Lanes.all .keep, ⟨0, false, false⟩⟩)], some 0, none, []⟩
      pending := List.replicate 4096 Instr.sweepRowWrite ++ [Instr.logPop] }
     s.pm.rows.wf = true ∧ s.pm.sweep = some 0 ∧ s.pending = List.replicate 4096 Instr.sweepRowWrite ++ [.logPop]) ∧
    (let s := Machine.State.reset
     s.pm.rows.wf = true ∧ s.pm.sweep = some 0 ∧ s.pending = [] ∧ s.pins.resetLow = false ∧ BusQuiet s ∧
       s.takesCycles = false ∧ s.pm.commits = []) :=
  ⟨⟨by decide, rfl, rfl⟩, rfl, rfl, rfl, rfl, rfl, rfl, rfl⟩

theorem witness_FillTakesItsOwnCopy :
    (Machine.State.reset.pins.resetLow = false ∧ Machine.State.reset.pm.sweep.isSome = true) ∧
    (Ready (filling fill) ∧ (filling fill).pm.fill.isSome = true) ∧
    (let s := { idle with window := { idle.window with fillValue := 0xFFFE } }
     Ready s ∧ s.pm.fill = none ∧ s.window.eff.mode.plane = .cells ∧
       CellCode.ofBits (s.window.fillValue.extractLsb' 0 3) = none) ∧
    (Ready idle ∧ idle.pm.fill = none ∧ idle.window.eff.mode.plane = .cells ∧
      CellCode.ofBits (idle.window.fillValue.extractLsb' 0 3) = some .driveLow) ∧
    (let s := windowed (small .rowFirst .descending .attributes .staged 5)
     Ready s ∧ s.pm.fill = none ∧ s.window.eff.mode.plane = .attributes) :=
  ⟨⟨rfl, rfl⟩, ⟨⟨rfl, rfl⟩, rfl⟩, ⟨⟨rfl, rfl⟩, rfl, rfl, by decide⟩, ⟨⟨rfl, rfl⟩, rfl, rfl, by decide⟩, ⟨rfl, rfl⟩, rfl, rfl⟩

theorem witness_FillAbortEndsAfterTheRowBegun :
    (Ready idle ∧ idle.pm.fill = none) ∧ (Ready (filling fill) ∧ (filling fill).pm.fill.isSome = true) ∧
    (Ready (committing fill) ∧ (committing fill).pm.fill.isSome = true) ∧
    (let f := { fill with row := 11, ending := true }
     (Ready (filling f) ∧ (filling f).pm.fill = some f ∧ f.ending = true) ∧
       ∃ t, exec .fillAbort (filling f) = .next t ∧ t.pm.fill = some f ∧ t.pm.commits = []) :=
  ⟨⟨⟨rfl, rfl⟩, rfl⟩, ⟨⟨rfl, rfl⟩, rfl⟩, ⟨⟨rfl, rfl⟩, rfl⟩, ⟨⟨rfl, rfl⟩, rfl, rfl⟩, _, rfl, rfl, rfl⟩

/-- A row inside the fill, its last row ascending and descending, a fill that ends, and one that waits for a commit application. -/
theorem witness_FillRowWriteSetsItsRow :
    ((filling fill).pm.fill = some fill ∧ (filling fill).pm.commits = [] ∧ fill.ending = false ∧ fill.row ≠ fill.rowEnd) ∧
    (let f := { fill with row := 11 }
     (filling f).pm.fill = some f ∧ (filling f).pm.commits = [] ∧ f.ending = false ∧ f.row = f.rowEnd) ∧
    (let f := { fill with direction := .descending, ending := true }
     (filling f).pm.fill = some f ∧ (filling f).pm.commits = [] ∧ f.ending = true ∧ f.row = f.rowStart) ∧
    ((committing fill).pm.fill = some fill ∧ (committing fill).pm.commits ≠ []) :=
  ⟨⟨rfl, rfl, rfl, by decide⟩, ⟨rfl, rfl, rfl, rfl⟩, ⟨rfl, rfl, rfl, rfl⟩, rfl, by decide⟩

/-- Both rows of the window, and a window of the one row 4095. -/
theorem witness_FillWritesItsWindowAndNothingElse :
    (let s := { filling fill with pending := List.replicate 2 Instr.fillRowWrite ++ [Instr.logPop] }
     s.pm.fill = some fill ∧ fill.ending = false ∧ s.pm.commits = [] ∧ fill.rowStart ≤ fill.rowEnd ∧
       fill.row = (if fill.direction = Direction.ascending then fill.rowStart else fill.rowEnd) ∧
       2 ≤ fill.rowEnd.val - fill.rowStart.val + 1 ∧ s.pending = List.replicate 2 Instr.fillRowWrite ++ [.logPop]) ∧
    (let f : Fill := ⟨4095, 4095, 0, 15, .descending, .attributes ⟨255, true, true⟩, 4095, false⟩
     let s := { filling f with pending := List.replicate 1 Instr.fillRowWrite ++ [] }
     s.pm.fill = some f ∧ f.ending = false ∧ s.pm.commits = [] ∧ f.rowStart ≤ f.rowEnd ∧
       f.row = (if f.direction = Direction.ascending then f.rowStart else f.rowEnd) ∧
       1 ≤ f.rowEnd.val - f.rowStart.val + 1 ∧ s.pending = List.replicate 1 Instr.fillRowWrite ++ []) :=
  ⟨⟨rfl, rfl, rfl, by decide, rfl, by decide, rfl⟩, rfl, rfl, rfl, by decide, rfl, by decide, rfl⟩

theorem witness_DuringAFillRequestsAreRefused : Ready (filling fill) ∧ (filling fill).pm.fill.isSome = true :=
  ⟨⟨rfl, rfl⟩, rfl⟩

theorem witness_WindowRegisterWriteHolds :
    Ready idle ∧ Machine.State.reset.pins.resetLow = false ∧ Machine.State.reset.pm.sweep.isSome = true := ⟨⟨rfl, rfl⟩, rfl, rfl⟩

/-- A sweep, a fill, a held window of one row, 4095, and five cells, and one with 0 cells per transfer. -/
theorem witness_SetWindowAndSeekPlaceTheCursor :
    (Machine.State.reset.pins.resetLow = false ∧ Machine.State.reset.pm.sweep.isSome = true) ∧
    ((filling fill).pins.resetLow = false ∧ (filling fill).pm.fill.isSome = true) ∧
    Ready idle ∧ idle.pm.fill = none ∧
    (let h : HeldWindow := ⟨4095, 4095, 15, 15, { WindowMode.reset with cells := 5 }⟩
     h.rowStart.toNat ≤ 4095 ∧ h.rowEnd.toNat ≤ 4095 ∧ h.rowStart.toNat ≤ h.rowEnd.toNat ∧ h.laneStart ≤ h.laneEnd ∧
       1 ≤ h.mode.cells.toNat ∧ h.mode.cells.toNat ≤ 5) ∧
    (let h : HeldWindow := ⟨0, 4095, 0, 15, { WindowMode.reset with cells := 0 }⟩
     ¬(1 ≤ h.mode.cells.toNat)) :=
  ⟨⟨rfl, rfl⟩, ⟨rfl, rfl⟩, ⟨rfl, rfl⟩, rfl, by decide, by decide⟩

/-- The window of R26 in each plane and order, its last place, and the whole of PM. -/
theorem witness_WalkVisitsPlacesInOrder :
    (let w := small .laneFirst .ascending .cells .direct 5
     w.rowStart ≤ w.rowEnd ∧ w.laneStart ≤ w.laneEnd ∧ w.mode.plane = .cells ∧ w.mode.traversal = .laneFirst ∧
       5 < (w.rowEnd.val - w.rowStart.val + 1) * (w.laneEnd.val - w.laneStart.val + 1)) ∧
    (let w := small .rowFirst .descending .cells .direct 5
     w.mode.plane = .cells ∧ w.mode.traversal = .rowFirst) ∧
    (let w := small .rowFirst .descending .attributes .direct 5
     w.mode.plane = .attributes ∧ 1 < w.rowEnd.val - w.rowStart.val + 1) ∧
    (let w := idle.window.eff
     w.rowStart ≤ w.rowEnd ∧ w.laneStart ≤ w.laneEnd ∧
       65535 < (w.rowEnd.val - w.rowStart.val + 1) * (w.laneEnd.val - w.laneStart.val + 1)) := by decide

theorem witness_WalkMeetsEveryPlaceOnce :
    (let w := small .rowFirst .ascending .attributes .direct 5
     w.rowStart ≤ w.rowEnd ∧ w.laneStart ≤ w.laneEnd) ∧
    (let w := idle.window.eff
     w.rowStart ≤ w.rowEnd ∧ w.laneStart ≤ w.laneEnd) := by decide

theorem witness_RefusedTransferChangesNothing :
    (Machine.State.reset.pins.resetLow = false ∧ Machine.State.reset.pm.sweep.isSome = true) ∧
    ((filling fill).pins.resetLow = false ∧ (filling fill).pm.fill.isSome = true) ∧
    (let s := { idle with pm := ⟨[], none, none, [3]⟩ }
     s.pins.resetLow = false ∧ s.window.eff.mode.target = .direct ∧ s.pm.commits ≠ []) :=
  ⟨⟨rfl, rfl⟩, ⟨rfl, rfl⟩, rfl, rfl, by decide⟩

/-- Five positions in a window of six places; position 4 names its place last, and row 0 is not named. -/
theorem witness_DirectCellWriteStoresItsPositions :
    let s := windowed (small .laneFirst .ascending .cells .direct 5)
    Ready s ∧ s.pm.fill = none ∧ s.pm.commits = [] ∧ s.window.eff.mode.target = .direct ∧ s.window.eff.mode.plane = .cells ∧
      (4 < s.window.eff.mode.cells.toNat ∧ codeAt 0x5000 4 = some .expectHigh ∧
        ∀ j, 4 < j → j < s.window.eff.mode.cells.toNat → place s j = place s 4 → codeAt 0x5000 j = none) ∧
      ∀ i, i < s.window.eff.mode.cells.toNat → place s i = ⟨0, 0⟩ → codeAt 0x5000 i = none := by
  refine ⟨⟨rfl, rfl⟩, rfl, rfl, rfl, rfl, ⟨by decide, by decide, fun j h1 h2 => ?_⟩, by decide⟩
  exact absurd h2 (Nat.not_lt.mpr h1)

theorem witness_DirectAttributeWriteStoresTheRecord :
    let s := windowed (small .laneFirst .ascending .attributes .direct 5)
    Ready s ∧ s.pm.fill = none ∧ s.pm.commits = [] ∧ s.window.eff.mode.target = .direct ∧
      s.window.eff.mode.plane = .attributes := ⟨⟨rfl, rfl⟩, rfl, rfl, rfl, rfl⟩

theorem witness_DataReadReturnsMemory :
    (let s := windowed (small .rowFirst .descending .cells .staged 5)
     Ready s ∧ s.pm.fill = none ∧ s.pm.commits = [] ∧ s.window.eff.mode.cells.toNat ≤ 5 ∧ s.window.eff.mode.plane = .cells) ∧
    (let s := windowed (small .rowFirst .descending .attributes .direct 1)
     Ready s ∧ s.pm.fill = none ∧ s.pm.commits = [] ∧ s.window.eff.mode.cells.toNat ≤ 5 ∧
       s.window.eff.mode.plane = .attributes) :=
  ⟨⟨⟨rfl, rfl⟩, rfl, rfl, by decide, rfl⟩, ⟨rfl, rfl⟩, rfl, rfl, by decide, rfl⟩

/-- Sixty-four entries in one closed batch. -/
def fullQueue : UpdateQueue := ⟨[⟨0, List.replicate 64 (.attributes 0 ⟨0, false, false⟩)⟩], none, 1⟩

/-- A word with a valid code and one without, an entry that is taken, and one that a full queue refuses. -/
theorem witness_StagedCellWriteOffersOneEntry :
    let s := windowed (small .laneFirst .ascending .cells .staged 1)
    (Ready s ∧ s.pm.fill = none ∧ s.window.eff.mode.target = .staged ∧ s.window.eff.mode.plane = .cells) ∧
      codeAt 0x0007 0 = none ∧ codeAt 0x0005 0 = some .expectHigh ∧
      (offerAnswer s.queue (.cells [⟨10, 2, .expectHigh⟩])).1 = true ∧
      (offerAnswer fullQueue (.cells [⟨10, 2, .expectHigh⟩])).1 = false :=
  ⟨⟨⟨rfl, rfl⟩, rfl, rfl, rfl⟩, by decide, by decide, by decide, by decide⟩

theorem witness_StagedAttributeWriteOffersOneEntry :
    let s := windowed (small .laneFirst .ascending .attributes .staged 1)
    (Ready s ∧ s.pm.fill = none ∧ s.window.eff.mode.target = .staged ∧ s.window.eff.mode.plane = .attributes) ∧
      (offerAnswer s.queue (.attributes 10 ⟨9, true, true⟩)).1 = true ∧
      (offerAnswer fullQueue (.attributes 10 ⟨9, true, true⟩)).1 = false :=
  ⟨⟨⟨rfl, rfl⟩, rfl, rfl, rfl⟩, by decide, by decide⟩

theorem witness_BatchCommandsActOnTheirBatches :
    (Ready (queued [batch] none) ∧ (queued [batch] none).queue.openBatch = none) ∧
    (let b : OpenBatch := ⟨8, batch.entries, false⟩
     Ready (queued [] (some b)) ∧ (queued [] (some b)).queue.openBatch = some b ∧ b.damaged = false) ∧
    (let b : OpenBatch := ⟨8, [], true⟩
     Ready (queued [] (some b)) ∧ (queued [] (some b)).queue.openBatch = some b ∧ b.damaged = true) :=
  ⟨⟨⟨rfl, rfl⟩, rfl⟩, ⟨⟨rfl, rfl⟩, rfl, rfl⟩, ⟨rfl, rfl⟩, rfl, rfl⟩

theorem witness_CommitAppliesClosedBatches :
    (Machine.State.reset.pins.resetLow = false ∧ Machine.State.reset.pm.sweep.isSome = true) ∧
    ((filling fill).pins.resetLow = false ∧ (filling fill).pm.fill.isSome = true) ∧
    (let s := { idle with run := { layout with seq := .armed } }
     Ready s ∧ s.pm.fill = none ∧ s.run.seq = .armed) ∧
    (Ready (playing .head 100 0) ∧ (playing .head 100 0).pm.fill = none ∧ (playing .head 100 0).run.seq.running = true) ∧
    (Ready (queued [batch, batch] none) ∧ (queued [batch, batch] none).pm.fill = none ∧ (queued [batch, batch] none).run.seq = .idle) ∧
    (Ready (playing .halted 100 0) ∧ (playing .halted 100 0).pm.fill = none ∧ (playing .halted 100 0).run.seq = .halted) :=
  ⟨⟨rfl, rfl⟩, ⟨rfl, rfl⟩, ⟨⟨rfl, rfl⟩, rfl, rfl⟩, ⟨⟨rfl, rfl⟩, rfl, rfl⟩, ⟨⟨rfl, rfl⟩, rfl, rfl⟩, ⟨rfl, rfl⟩, rfl, rfl⟩

/-- In IDLE, and in a run at the end of its period with one application of one cycle, at the end of its division, and short of
both. -/
theorem witness_CommitApplicationLastsItsCycles :
    (let s := { idle with pm := ⟨[], none, none, [321, 2]⟩ }
     s.pm.commits = [321, 2] ∧ Ready s ∧ BusQuiet s ∧ s.pending = [] ∧ 1 ≤ 321 ∧ 320 < 321) ∧
    (let s := { counting 2 1 1 1 with pm := ⟨[], none, none, [1]⟩ }
     s.pm.commits = [1] ∧ Ready s ∧ BusQuiet s ∧ s.pending = [] ∧ s.takesCycles = true ∧
       s.timebase.prescaleCount + 1 = 2 ^ s.timebase.prescale.toNat ∧ s.timebase.periodCount + 1 = s.timebase.period.toNat + 1) ∧
    (let s := { counting 2 1 1 0 with pm := ⟨[], none, none, [2, 1]⟩ }
     s.takesCycles = true ∧ s.timebase.prescaleCount + 1 = 2 ^ s.timebase.prescale.toNat ∧
       s.timebase.periodCount + 1 < s.timebase.period.toNat + 1) ∧
    (let s := { counting 2 1 0 1 with pm := ⟨[], none, none, [2, 1]⟩ }
     s.takesCycles = true ∧ s.timebase.prescaleCount + 1 < 2 ^ s.timebase.prescale.toNat) :=
  ⟨⟨rfl, ⟨rfl, rfl⟩, rfl, rfl, by decide, by decide⟩, ⟨rfl, ⟨rfl, rfl⟩, rfl, rfl, rfl, rfl, rfl⟩, ⟨rfl, rfl, by decide⟩, rfl, by decide⟩

theorem witness_GateHoldsTheTimebase :
    let s := { playing .loop 103 0 with timebase := { (playing .loop 103 0).timebase with gateEnabled := true } }
    s.timebase.gateEnabled = true ∧ s.pins.gate = s.timebase.holdHigh ∧ Ready s ∧ BusQuiet s ∧ s.pm.commits = [] ∧
      s.pending = [] :=
  ⟨rfl, rfl, ⟨rfl, rfl⟩, rfl, rfl, rfl⟩

/-- The longest tick, and its last cycle. -/
theorem witness_TickEveryDivisionTimesPeriod :
    let s := { playing .loop 103 0 with timebase := { (playing .loop 103 0).timebase with prescale := 7, period := 0xFFFF } }
    s.pending = [] ∧ BusQuiet s ∧ s.pm.sweep = none ∧ s.pm.commits = [] ∧ s.takesCycles = true ∧
      s.timebase.prescaleCount = 0 ∧ s.timebase.periodCount = 0 ∧
      8388607 < 2 ^ s.timebase.prescale.toNat * (s.timebase.period.toNat + 1) :=
  ⟨rfl, rfl, rfl, rfl, rfl, rfl, rfl, by decide⟩

theorem timebaseSound_stopped (seq : SeqState) (h : seq.running = false) :
    TimebaseSound { idle with run := { layout with seq := seq } } :=
  ⟨h.symm, fun h => (by cases h), fun h => (by cases h), fun h => (by cases h)⟩

theorem witness_TickOnlyInARunAndHeldBack :
    TimebaseSound { idle with run := { layout with seq := .idle } } ∧
    TimebaseSound { idle with run := { layout with seq := .armed } } ∧
    TimebaseSound { idle with run := { layout with seq := .halted } } ∧ idle.timebase.counting = false ∧
    { playing .head 100 0 with timebase := { (playing .head 100 0).timebase with startHeld := true } }.timebase.startHeld = true ∧
    (let s := { playing .loop 103 0 with pm := ⟨[], none, none, [3]⟩ }
     s.takesCycles = true ∧ s.pm.commits ≠ []) :=
  ⟨timebaseSound_stopped _ rfl, timebaseSound_stopped _ rfl, timebaseSound_stopped _ rfl, rfl, rfl, rfl, by decide⟩

/-- The ends of the range of STROBE, and the values beside them. -/
theorem witness_IdleRegistersAreLockedInARun :
    (Ready idle ∧ idle.run.seq = .idle) ∧
    (1 ≤ (1 : Word).toNat ∧ (1 : Word).toNat ≤ 256) ∧ (1 ≤ (256 : Word).toNat ∧ (256 : Word).toNat ≤ 256) ∧
    (0 : Word).toNat = 0 ∧ 256 < (257 : Word).toNat ∧
    (Machine.State.reset.pins.resetLow = false ∧ Machine.State.reset.pm.sweep.isSome = true) ∧
    ((playing .halted 100 0).pins.resetLow = false ∧ (playing .halted 100 0).run.seq ≠ .idle) :=
  ⟨⟨⟨rfl, rfl⟩, rfl⟩, by decide, by decide, by decide, by decide, ⟨rfl, rfl⟩, rfl, by decide⟩

/-- A layout that ends at row 4095, with E = L - 1. -/
def lastLayout : RunControl :=
  { RunControl.reset with base := 4000, headLen := 0, loopLen := 90, tailLen := 6, entryOffset := 89 }

theorem validLayout_layout : ValidLayout layout ∧ ValidLayout lastLayout := by unfold ValidLayout; decide

theorem not_validLayout_reset : ¬ValidLayout RunControl.reset := by unfold ValidLayout; decide

theorem witness_StartMakesARunStart :
    (Machine.State.reset.pins.resetLow = false ∧ Machine.State.reset.pm.sweep.isSome = true) ∧
    (Ready idle ∧ idle.run.seq = .idle ∧ ¬ValidLayout idle.run) ∧
    (let s := { idle with run := lastLayout }
     Ready s ∧ s.run.seq = .idle ∧ ValidLayout s.run) ∧
    (let s := { idle with run := { layout with seq := .armed } }
     Ready s ∧ s.run.seq = .armed ∧ ValidLayout s.run) ∧
    (Ready (playing .tail 105 0) ∧ (playing .tail 105 0).run.seq.running = true) ∧
    (Ready (playing .halted 105 0) ∧ (playing .halted 105 0).run.seq = .halted) :=
  ⟨⟨rfl, rfl⟩, ⟨⟨rfl, rfl⟩, rfl, not_validLayout_reset⟩, ⟨⟨rfl, rfl⟩, rfl, validLayout_layout.2⟩,
    ⟨⟨rfl, rfl⟩, rfl, validLayout_layout.1⟩, ⟨⟨rfl, rfl⟩, rfl⟩, ⟨rfl, rfl⟩, rfl⟩

theorem witness_ArmLocksAValidLayout :
    (Machine.State.reset.pins.resetLow = false ∧ Machine.State.reset.pm.sweep.isSome = true) ∧
    (Ready idle ∧ idle.run.seq = .idle ∧ ¬ValidLayout idle.run) ∧
    (let s := { idle with run := lastLayout }
     Ready s ∧ s.run.seq = .idle ∧ ValidLayout s.run) ∧
    (Ready (playing .head 100 0) ∧ (playing .head 100 0).run.seq ≠ .idle) :=
  ⟨⟨rfl, rfl⟩, ⟨⟨rfl, rfl⟩, rfl, not_validLayout_reset⟩, ⟨⟨rfl, rfl⟩, rfl, validLayout_layout.2⟩, ⟨rfl, rfl⟩, by decide⟩

theorem witness_StopMarksTheRun :
    (Ready idle ∧ idle.run.seq = .idle) ∧ (Ready (playing .halted 100 0) ∧ (playing .halted 100 0).run.seq = .halted) ∧
    (Ready (playing .head 100 0) ∧ (playing .head 100 0).run.seq = .head) ∧
    (Ready (playing .loop 103 0) ∧ (playing .loop 103 0).run.seq = .loop) ∧
    (Ready (playing .tail 105 0) ∧ (playing .tail 105 0).run.seq = .tail) ∧
    (let s := { idle with run := { layout with seq := .armed } }
     Ready s ∧ TimebaseSound s ∧ s.run.seq = .armed) ∧
    (Machine.State.reset.pins.resetLow = false ∧ Machine.State.reset.pm.sweep.isSome = true) :=
  ⟨⟨⟨rfl, rfl⟩, rfl⟩, ⟨⟨rfl, rfl⟩, rfl⟩, ⟨⟨rfl, rfl⟩, rfl⟩, ⟨⟨rfl, rfl⟩, rfl⟩, ⟨⟨rfl, rfl⟩, rfl⟩,
    ⟨⟨rfl, rfl⟩, timebaseSound_stopped _ rfl, rfl⟩, rfl, rfl⟩

theorem witness_AbortEndsAtOnce :
    (Ready idle ∧ idle.run.seq = .idle) ∧ (Ready (playing .loop 103 0) ∧ (playing .loop 103 0).run.seq ≠ .idle) ∧
    (Machine.State.reset.pins.resetLow = false ∧ Machine.State.reset.pm.sweep.isSome = true) :=
  ⟨⟨⟨rfl, rfl⟩, rfl⟩, ⟨⟨rfl, rfl⟩, by decide⟩, rfl, rfl⟩

/-- An edge is a change to the active level; a rising level is none with polarity falling. -/
theorem witness_TrigEdgeStartsAnArmedRun :
    (let s := { idle with run := { layout with seq := .armed } }
     (s.pins.resetLow = false ∧ s.pins.trig ≠ true ∧ true = !s.run.fallingTrig) ∧ s.run.seq = .armed ∧ ValidLayout s.run) ∧
    (let s := playing .loop 103 0
     (s.pins.resetLow = false ∧ s.pins.trig ≠ true ∧ true = !s.run.fallingTrig) ∧ s.run.seq.running = true) ∧
    (let s := { idle with run := { layout with seq := .armed, fallingTrig := true } }
     ¬(s.pins.resetLow = false ∧ s.pins.trig ≠ true ∧ true = !s.run.fallingTrig)) ∧
    idle.run.seq = .idle ∧ Ready idle ∧
    (Machine.State.reset.pins.resetLow = false ∧ Machine.State.reset.pm.sweep.isSome = true) :=
  ⟨⟨by decide, rfl, validLayout_layout.1⟩, ⟨by decide, rfl⟩, by decide, rfl, ⟨rfl, rfl⟩, rfl, rfl⟩

/-- Offsets of L - 1 and L; targets beside the pass count of 3. -/
theorem witness_OffsetAndTargetWritesByState :
    (Ready idle ∧ idle.run.seq = .idle ∧ idle.run.seq.running = false) ∧
    (let s := { playing .loop 103 0 with run := { (playing .loop 103 0).run with passCount := 3 } }
     Ready s ∧ s.run.seq.running = true ∧ (2 : Word).toNat < s.run.loopLen.toNat ∧ s.run.loopLen.toNat ≤ (3 : Word).toNat ∧
       s.run.passCount.toNat < (4 : Word).toNat ∧ (3 : Word).toNat ≠ 0 ∧ (3 : Word).toNat ≤ s.run.passCount.toNat ∧
       (0 : Word).toNat = 0) ∧
    (Ready (playing .halted 103 0) ∧ (playing .halted 103 0).run.seq = .halted) ∧
    (Machine.State.reset.pins.resetLow = false ∧ Machine.State.reset.pm.sweep.isSome = true) :=
  ⟨⟨⟨rfl, rfl⟩, rfl, rfl⟩, ⟨⟨rfl, rfl⟩, rfl, by decide, by decide, by decide, by decide, by decide, by decide⟩,
    ⟨⟨rfl, rfl⟩, rfl⟩, rfl, rfl⟩

theorem rowEnded_ended (seq : SeqState) (r : RowNum) (n : Nat) (h : seq.running = true) : RowEnded (ended seq r n) (rowOf r) :=
  ⟨rfl, h, rfl, rfl, rfl⟩

theorem layoutSound_ended (seq : SeqState) (r : RowNum) (n : Nat) : LayoutSound (ended seq r n).run :=
  ⟨fun _ => rfl, fun _ h => (by cases h)⟩

/-- Row 100 of the head of rows 100 and 101; row 105 of a tail of rows 105 and 106; loop row 2, the second last of a pass from loop
row 1. -/
theorem witness_RowEndLatchesTheNextRow :
    (let s := ended .head 100 0
     RowEnded s (rowOf 100) ∧ LayoutSound s.run ∧ PositionSound s.run ∧ s.run.seq = .head ∧
       s.run.curRow.val + 1 < s.run.base.toNat + s.run.headLen.toNat) ∧
    (let s := { ended .tail 105 0 with run := { (ended .tail 105 0).run with tailLen := 2 } }
     RowEnded s (rowOf 105) ∧ LayoutSound s.run ∧ PositionSound s.run ∧ s.run.seq = .tail ∧
       s.run.curRow.val + 1 < s.run.base.toNat + s.run.headLen.toNat + s.run.loopLen.toNat + s.run.tailLen.toNat) ∧
    (let s := ended .loop 104 1
     RowEnded s (rowOf 104) ∧ LayoutSound s.run ∧ PositionSound s.run ∧ s.run.seq = .loop ∧
       s.run.passRows + 1 < s.run.loopLen.toNat) := by
  refine ⟨⟨rowEnded_ended _ _ _ rfl, layoutSound_ended _ _ _, ?_, rfl, by decide⟩,
    ⟨⟨rfl, rfl, rfl, rfl, rfl⟩, ⟨fun _ => rfl, fun _ h => (by cases h)⟩, ?_, rfl, by decide⟩,
    rowEnded_ended _ _ _ rfl, layoutSound_ended _ _ _, ?_, rfl, by decide⟩ <;>
  exact ⟨by decide, by decide, by decide⟩

theorem witness_LastHeadAndTailRowsEndTheirRegions :
    (let s := ended .head 101 0
     RowEnded s (rowOf 101) ∧ LayoutSound s.run ∧ s.run.seq = .head ∧
       s.run.base.toNat + s.run.headLen.toNat ≤ s.run.curRow.val + 1 ∧ s.run.stopMark = false) ∧
    (let s := { ended .head 101 0 with run := { (ended .head 101 0).run with stopMark := true } }
     RowEnded s (rowOf 101) ∧ LayoutSound s.run ∧ s.run.seq = .head ∧ s.run.stopMark = true ∧ 0 < s.run.tailLen.toNat) ∧
    (let s := { ended .head 101 0 with run := { (ended .head 101 0).run with stopMark := true, tailLen := 0 } }
     RowEnded s (rowOf 101) ∧ LayoutSound s.run ∧ s.run.seq = .head ∧ s.run.stopMark = true ∧ s.run.tailLen.toNat = 0) ∧
    (let s := ended .tail 105 0
     RowEnded s (rowOf 105) ∧ LayoutSound s.run ∧ s.run.seq = .tail ∧
       s.run.base.toNat + s.run.headLen.toNat + s.run.loopLen.toNat + s.run.tailLen.toNat ≤ s.run.curRow.val + 1) :=
  ⟨⟨rowEnded_ended _ _ _ rfl, layoutSound_ended _ _ _, rfl, by decide, rfl⟩,
    ⟨⟨rfl, rfl, rfl, rfl, rfl⟩, ⟨fun _ => rfl, fun _ h => (by cases h)⟩, rfl, rfl, by decide⟩,
    ⟨⟨rfl, rfl, rfl, rfl, rfl⟩, ⟨fun _ => rfl, fun _ h => (by cases h)⟩, rfl, rfl, by decide⟩,
    rowEnded_ended _ _ _ rfl, layoutSound_ended _ _ _, rfl, by decide⟩

/-- The last row of a pass without a target, at a target of 1, and with a stop pending and no tail. -/
theorem witness_PassBoundaryTakesItsSteps :
    (let s := ended .loop 102 2
     RowEnded s (rowOf 102) ∧ LayoutSound s.run ∧ s.run.seq = .loop ∧ s.run.loopLen.toNat ≤ s.run.passRows + 1 ∧
       ¬(s.run.stopMark = true ∨ (s.run.targetInForce ≠ 0 ∧ s.run.passCount + 1 = s.run.targetInForce))) ∧
    (let s := { ended .loop 102 2 with run := { (ended .loop 102 2).run with targetInForce := 1 } }
     RowEnded s (rowOf 102) ∧ LayoutSound s.run ∧ s.run.seq = .loop ∧
       (s.run.targetInForce ≠ 0 ∧ s.run.passCount + 1 = s.run.targetInForce) ∧ 0 < s.run.tailLen.toNat) ∧
    (let s := { ended .loop 102 2 with run := { (ended .loop 102 2).run with stopMark := true, tailLen := 0 } }
     RowEnded s (rowOf 102) ∧ LayoutSound s.run ∧ s.run.seq = .loop ∧ s.run.stopMark = true ∧ s.run.tailLen.toNat = 0) :=
  ⟨⟨rowEnded_ended _ _ _ rfl, layoutSound_ended _ _ _, rfl, by decide, by decide⟩,
    ⟨⟨rfl, rfl, rfl, rfl, rfl⟩, ⟨fun _ => rfl, fun _ h => (by cases h)⟩, rfl, by decide, by decide⟩,
    ⟨⟨rfl, rfl, rfl, rfl, rfl⟩, ⟨fun _ => rfl, fun _ h => (by cases h)⟩, rfl, rfl, by decide⟩⟩

/-- A row of dwell 2 before its strobe, and a wait row past its wait. -/
theorem witness_DwellTickAdvancesTheRow :
    (let s := playing .loop 103 1
     s.takesCycles = true ∧ s.pm.commits = [] ∧ s.play.latched = some ⟨103, Lanes.all .released, 1, false⟩ ∧
       s.play.phase = .dwell ∧ s.play.tickInRow + 1 ≠ min s.play.strobe.toNat (1 + 1)) ∧
    (let s := { waiting 5 0 with play := { (waiting 5 0).play with phase := .dwell } }
     s.takesCycles = true ∧ s.pm.commits = [] ∧
       s.play.latched = some ⟨102, (Lanes.all .released).set 0 .expectingHigh, 0, true⟩ ∧ s.play.phase = .dwell) :=
  ⟨⟨rfl, rfl, rfl, rfl, by decide⟩, rfl, rfl, rfl, rfl⟩

theorem witness_StrobeMismatchIsAFail :
    let s := expecting .halt
    let row : LatchedRow := ⟨102, (Lanes.all .released).set 0 .expectingHigh, 0, false⟩
    s.takesCycles = true ∧ s.pm.commits = [] ∧ s.play.latched = some row ∧ s.play.phase = .dwell ∧ row.wait = false ∧
      s.run.seq.region = some .loop ∧ s.play.tickInRow + 1 = min s.play.strobe.toNat (row.dwellLess1.toNat + 1) ∧
      (∃ n, mismatching (sampled s) row n = true) ∧ s.compare.policy = .halt :=
  ⟨rfl, rfl, rfl, rfl, rfl, rfl, by decide, ⟨0, by decide⟩, rfl⟩

/-- A miss short of the limit, at it, and with no limit at the end of the count; a match with L0 masked. -/
theorem witness_WaitTickChecksTheLanes :
    let row : LatchedRow := ⟨102, (Lanes.all .released).set 0 .expectingHigh, 0, true⟩
    (let s := waiting 5 4
     s.takesCycles = true ∧ s.pm.commits = [] ∧ s.run.seq.running = true ∧ s.play.latched = some row ∧
       s.play.phase = .waiting ∧ (∃ n, mismatching (sampled s) row n = true) ∧ s.play.waitLimit ≠ 0 ∧
       s.play.waitCount + 1 = s.play.waitLimit) ∧
    (let s := waiting 5 3
     (∃ n, mismatching (sampled s) row n = true) ∧ s.play.waitCount + 1 ≠ s.play.waitLimit) ∧
    (let s := waiting 0 0xFFFF
     (∃ n, mismatching (sampled s) row n = true) ∧ s.play.waitLimit = 0) ∧
    (let s := { waiting 5 4 with compare := { CompareUnit.reset with mask := 0xFFFE } }
     s.takesCycles = true ∧ s.play.phase = .waiting ∧ ∀ n, mismatching (sampled s) row n = false) :=
  ⟨⟨rfl, rfl, rfl, rfl, rfl, ⟨0, by decide⟩, by decide, by decide⟩, ⟨⟨0, by decide⟩, by decide⟩, ⟨⟨0, by decide⟩, rfl⟩, rfl, rfl,
    by decide⟩

theorem witness_WaitTimeoutIsAFail :
    (let s := waiting 5 5
     s.pins.resetLow = false ∧ s.play.latched = some ⟨102, (Lanes.all .released).set 0 .expectingHigh, 0, true⟩ ∧
       s.run.seq.region = some .loop ∧ s.play.phase = .waiting ∧ s.play.waitLimit ≠ 0 ∧ s.play.waitCount = s.play.waitLimit ∧
       (∃ n, s.play.checkMismatch.get n = true) ∧ s.compare.policy ≠ .halt) ∧
    { waiting 0xFFFF 0xFFFF with compare := { CompareUnit.reset with policy := .halt } }.compare.policy = .halt :=
  ⟨⟨rfl, rfl, rfl, rfl, by decide, rfl, ⟨0, by decide⟩, by decide⟩, rfl⟩

theorem witness_PulseEndsLowerTheirPins : idle.pins.resetLow = false := rfl

/-- A valid value for each half, with a field of each setting, and an invalid one. -/
theorem witness_ParkWriteParksInIdleAndArmed :
    Ready idle ∧ (¬∃ i, i < 8 ∧ (0x8024 : Word).toNat / 4 ^ i % 4 = 3) ∧ (∃ i, i < 8 ∧ (0xC000 : Word).toNat / 4 ^ i % 4 = 3) ∧
    (0x8024 : Word).toNat / 4 ^ 0 % 4 = 0 ∧ (0x8024 : Word).toNat / 4 ^ 1 % 4 = 1 ∧ (0x8024 : Word).toNat / 4 ^ 7 % 4 = 2 ∧
    (Machine.State.reset.pins.resetLow = false ∧ Machine.State.reset.pm.sweep.isSome = true) := by
  refine ⟨⟨rfl, rfl⟩, ?_, ⟨7, by decide⟩, by decide, by decide, by decide, rfl, rfl⟩
  rintro ⟨i, h, h'⟩
  revert h'
  revert i
  decide

theorem witness_TermWriteSetsTerminations :
    Ready (playing .loop 103 0) ∧ (¬∃ i, i < 8 ∧ (0x8024 : Word).toNat / 4 ^ i % 4 = 3) ∧
    (∃ i, i < 8 ∧ (0x0003 : Word).toNat / 4 ^ i % 4 = 3) ∧
    (Machine.State.reset.pins.resetLow = false ∧ Machine.State.reset.pm.sweep.isSome = true) :=
  ⟨⟨rfl, rfl⟩, witness_ParkWriteParksInIdleAndArmed.2.1, ⟨0, by decide⟩, rfl, rfl⟩

/-- L15 with PULL_UP, its keeper still low. -/
theorem witness_KeepersFollowThePins :
    let s := { idle with lanes := { idle.lanes with term := idle.lanes.term.set 15 .pullUp } }
    s.lanes.pinLevel 15 = none ∧ s.lanes.pull 15 = some true := by decide

/-- L0 driven, L1 driven by the unit under test, L2 held by its keeper. -/
theorem witness_PinsStandWhereTheyAreDriven :
    let s := { idle with lanes := { idle.lanes with
      effective := idle.lanes.effective.set 0 .drivenHigh
      uut := idle.lanes.uut.set 1 .high } }
    s.lanes.active = true ∧ s.lanes.effective.get 0 = .drivenHigh ∧
      (s.lanes.effective.get 1 = .released ∧ uutLevel (s.lanes.uut.get 1) = some true) ∧
      (s.lanes.effective.get 2 = .released ∧ s.lanes.uut.get 2 = .silent ∧ s.lanes.keeper.get 2 = false ∧
        s.lanes.term.get 2 = .none) := by decide

/-- One fail record, of a strobe in pass 1 of LOOP. -/
def fail : FailRecord := ⟨.compare, .loop, 102, some 1, (Lanes.all false).set 0 true, Lanes.all false, 1⟩

theorem witness_LogCommandsAndCompareRegisters :
    (Ready idle ∧ idle.compare.log = []) ∧
    (let s := { idle with compare := { CompareUnit.reset with log := [fail, fail] } }
     Ready s ∧ s.compare.log = fail :: [fail]) ∧
    ((0xFFFC : Word).toNat % 4 = 0 ∧ (0x0001 : Word).toNat % 4 = 1 ∧ (0x0002 : Word).toNat % 4 = 2 ∧ (0xFFFF : Word).toNat % 4 = 3) ∧
    (Machine.State.reset.pins.resetLow = false ∧ Machine.State.reset.pm.sweep.isSome = true) :=
  ⟨⟨⟨rfl, rfl⟩, rfl⟩, ⟨⟨rfl, rfl⟩, rfl⟩, by decide, rfl, rfl⟩

theorem witness_EventWritesAndTheInterruptPin :
    Ready idle ∧ Machine.State.reset.pins.resetLow = false ∧ Machine.State.reset.pm.sweep.isSome = true := ⟨⟨rfl, rfl⟩, rfl, rfl⟩

theorem witness_EveryCommandWriteIsReported :
    idle.pins.resetLow = false ∧ Instr.request .start = .command ∧ Ready idle ∧
    (0x0101 : Word).toNat ∉ [0x01, 0x02, 0x03, 0x04, 0x10, 0x11, 0x12, 0x13, 0x20, 0x21, 0x22, 0x23, 0x30, 0x31, 0x5A] :=
  ⟨rfl, rfl, ⟨rfl, rfl⟩, by decide⟩

/-- The rows of some writes; then, of the edges, a write, a read by a fall of each strobe and of both, a read of DATA, and one edge of
each kind that takes no cycle: a rise of WR_N with CS_N high, a fall of WR_N and a rise of CS_N and of RD_N in a read, a fall of CS_N
with RD_N high and of RD_N with WR_N low. -/
theorem witness_WriteCycleGoesThroughTheMap :
    registerRow 0x03 0x005A = some .softReset ∧ registerRow 0x39 3 = some (.failPolicyWrite 3) ∧ registerRow 0x38 0 = none ∧
    (0x3F : Addr).toNat ∈ [0x03, 0x07, 0x12, 0x13, 0x1D, 0x1E, 0x1F, 0x25, 0x26, 0x27, 0x2F, 0x3A, 0x3B, 0x3C, 0x3D, 0x3E, 0x3F] ∧
    (idle.pending = [] ∧ idle.pins.resetLow = false ∧ idle.pins.lines.strobes = idle.bus.seen) ∧
    (let s := onLines writing chosen 0x24 7
     s.pending = [] ∧ s.pins.resetLow = false ∧ s.bus.seen.csLow = true ∧ s.bus.seen.wrLow = true ∧
       s.pins.lines.strobes = { s.bus.seen with wrLow := false }) ∧
    (∀ seen ∈ [chosen, ⟨false, true, false⟩, .high],
      (onLines seen reading 0x3F 0).pins.lines.strobes = ⟨true, true, false⟩ ∧ seen.wrLow = false ∧ seen ≠ reading) ∧
    (onLines chosen reading 0x0E 0).pins.lines.addr = 0x0E ∧ (onLines chosen reading 0x3F 0).pins.lines.addr ≠ 0x0E ∧
    (Strobes.high = { (⟨false, false, true⟩ : Strobes) with wrLow := false } ∧
      (⟨true, true, true⟩ : Strobes) = { reading with wrLow := true } ∧ reading.wrLow = false ∧
      (⟨false, true, false⟩ : Strobes) = { reading with csLow := false } ∧ reading.csLow = true ∧
      chosen = { reading with rdLow := false } ∧ reading.rdLow = true ∧
      chosen = { Strobes.high with csLow := true } ∧ Strobes.high.csLow = false ∧ Strobes.high.rdLow = false ∧
      (⟨true, true, true⟩ : Strobes) = { writing with rdLow := true } ∧ writing.rdLow = false ∧ writing.wrLow = true) :=
  ⟨rfl, rfl, rfl, by decide, ⟨rfl, rfl, rfl⟩, ⟨rfl, rfl, rfl, rfl, rfl⟩, by decide, rfl, by decide, by decide⟩

/-- A queue of 64 entries in 64 closed batches, a log of one record, and the first and last of the log's words. -/
theorem witness_StatusWordsShowTheirFields :
    QueueSound ⟨List.replicate 64 ⟨0, [.attributes 0 ⟨0, false, false⟩]⟩, none, 1⟩ ∧ idle.compare.log = [] ∧
    { idle with compare := { CompareUnit.reset with log := [fail] } }.compare.log = fail :: [] ∧
    { idle with compare := { CompareUnit.reset with log := List.replicate 32 fail } }.compare.log.length ≤ 32 ∧
    (0x32 ≤ (0x32 : Addr).toNat ∧ (0x38 : Addr).toNat ≤ 0x38) := by
  refine ⟨⟨by decide, ?_, fun b h => (by cases h), ?_, fun b h => (by cases h)⟩, rfl, rfl, by decide, by decide, by decide⟩
  · intro b h
    rw [List.eq_of_mem_replicate h]
    decide
  · intro b h e he
    rw [List.eq_of_mem_replicate h] at he
    rw [List.mem_singleton.mp he]
    exact trivial

theorem witness_EventsWithoutACauseDoNothing :
    (idle.pm.sweep = none ∧ idle.pm.fill = none ∧ idle.pm.commits = [] ∧ idle.play.phase = .dwell) ∧
    ((committing fill).pm.fill = some fill ∧ (committing fill).pm.commits ≠ []) ∧
    (∀ row, ¬RowEnded idle row) ∧ (waiting 0 5).play.waitLimit = 0 ∧ (waiting 5 4).play.waitCount ≠ (waiting 5 4).play.waitLimit ∧
    idle.lanes.pinLevel 15 ≠ none ∧ idle.lanes.pull 15 = none :=
  ⟨⟨rfl, rfl, rfl, rfl⟩, ⟨rfl, by decide⟩, fun _ h => (by cases h.2.1), rfl, by decide, by decide, by decide⟩

/-- A run in the second pass of its LOOP, with a target of 2, a batch waiting, a fail in the log and a read in progress, meets the invariant, and its
next tick answers a next state. -/
theorem witness_EveryStepKeepsTheInvariant :
    let s := { playing .loop 103 0 with
      run := { (playing .loop 103 0).run with passCount := 1, targetInForce := 2 }
      timebase := { (playing .loop 103 0).timebase with stamp := 5 }
      queue := ⟨[batch], none, 8⟩
      compare := { CompareUnit.reset with log := [fail] }
      bus := { HostBus.resetWith reading with driven := some 0xEF41 }
      pending := [.tick] }
    Inv s ∧ ∃ t, step s = .next t := by
  refine ⟨⟨?_, ?_, ?_, ?_, ?_, ?_, ?_, ?_, ?_, ?_, ?_, ?_, ⟨fun _ => rfl, fun _ => rfl⟩⟩, _, rfl⟩
  · exact ⟨rfl, fun _ h => (by cases h), fun h => (by cases h), fun _ h => (by cases h), fun h => (by cases h)⟩
  · exact ⟨by decide, by decide, by decide, by decide, by decide, by decide, fun h => (by cases h)⟩
  · refine ⟨by decide, ?_, fun _ h => (by cases h), ?_, fun _ h => (by cases h)⟩
    · intro b h
      rw [List.mem_singleton.mp h]
      decide
    · intro b h e he
      rw [List.mem_singleton.mp h] at he
      rcases List.mem_cons.mp he with rfl | he
      · exact ⟨by decide, by decide⟩
      · rw [List.mem_singleton.mp he]
        exact trivial
  · exact ⟨rfl, fun _ => (by decide), fun _ => (by decide), fun h => (by cases h)⟩
  · exact ⟨fun _ => (by decide), fun _ h => (by cases h)⟩
  · exact ⟨fun h => (by cases h), fun h => (by cases h)⟩
  · exact ⟨fun _ => (by decide), fun _ _ => (by decide)⟩
  · exact ⟨fun h => (by cases h), fun _ => (by decide), fun h => (by cases h)⟩
  · refine ⟨rfl, ?_, fun h => (by cases h), ?_, ?_, rfl, by decide, by decide⟩
    · rintro _ ⟨⟩
      rfl
    · rintro _ ⟨⟩ h
      cases h
    · rintro _ ⟨⟩ _
      decide
  · refine ⟨rfl, ?_, ?_⟩
    · rintro _ (h | h) <;> cases h
    · rintro _ ⟨⟩ _
      rfl
  · intro n b
    revert b
    revert n
    decide
  · refine ⟨by decide, List.pairwise_singleton _ _, ?_, ?_⟩
    · intro r h
      rw [List.mem_singleton.mp h]
      decide
    · intro r h
      rw [List.mem_singleton.mp h]
      exact ⟨by decide, by decide, by decide, fun p h => (by cases h; decide)⟩

end Sys2Proof.Tests
end

section
/-! How a bus cycle reaches its owner: the command, the register write and the write cycle of any row, each as one equation of `exec`
(chapter 10). -/

namespace Sys2Proof.Machine

/-- Every row that is a write to COMMAND is carried out by some owner through `State.command` (R168). -/
theorem exec_of_command {c : Instr} (h : c.request = .command) (s : State) : ∃ f, exec c s = .next (s.command f) := by
  cases c with
  | start | arm | stop | abort | setWindow | seek | fill | fillAbort | closeBatch | discardBatch | flushQueue | commit
  | logPop | logClear | softReset | unknownCommand => exact ⟨_, rfl⟩
  | _ => cases h

/-- Every row that is a write to a writable register but EVENTS, DATA and COMMAND is taken by some owner through `State.regWrite`
(R166). -/
theorem exec_of_registerWrite {c : Instr} (h : c.request = .registerWrite) (s : State) :
    ∃ f, exec c s = .next (s.regWrite f) := by
  cases c with
  | eventEnableWrite | parkWrite | termWrite | entryOffsetWrite | passTargetWrite | layoutWrite | timebaseWrite | strobeWrite
  | waitLimitWrite | compareMaskWrite | failPolicyWrite | windowRegisterWrite | runConfigWrite => exact ⟨_, rfl⟩
  | _ => cases h

/-- A code written to COMMAND is the row of that code, or UNKNOWN_COMMAND (R168). -/
theorem exec_commandOfCode (code : Word) (s : State) :
    exec ((commandOfCode code).getD (.unknownCommand code)) s = .next (s.writeCommand code) := by
  cases hc : commandOfCode code with
  | none => rfl
  | some c =>
    have hcode := hc
    unfold State.writeCommand State.command State.busCycle State.ownerOf
    simp only [hc]
    unfold commandOfCode at hcode
    split at hcode <;> cases hcode <;> rfl

/-- A word address is the literal of its number. -/
theorem Addr.eq_ofNat {addr : Addr} {k : Nat} (h : addr.toNat = k) : addr = BitVec.ofNat 6 k := by
  rw [← h, BitVec.ofNat_toNat, BitVec.setWidth_eq]

/-- A write cycle at the address of a writable register is the row of that register (R166, R167). -/
theorem exec_registerWrite_of_row {addr : Addr} {value : Word} {c : Instr} (h : registerRow addr value = some c) (s : State) :
    exec (.registerWrite addr value) s = exec c s := by
  unfold registerRow at h
  split at h
  case h_1 ha =>
    obtain rfl := Addr.eq_ofNat ha
    obtain rfl := Option.some.inj h
    exact (exec_commandOfCode value s).symm
  case h_28 => exact absurd h.symm (Option.some_ne_none c)
  all_goals
    rename_i ha
    obtain rfl := Addr.eq_ofNat ha
    obtain rfl := Option.some.inj h
    exact rfl

/-- A write cycle at a read-only register or an unmapped address is ignored without event (R166). -/
theorem exec_registerWrite_of_no_row {addr : Addr} {value : Word} (h : registerRow addr value = none) (s : State) :
    exec (.registerWrite addr value) s = .next s := by
  show Host.Outcome.next (s.writeReg addr value) = .next s
  unfold State.writeReg
  split
  case h_28 => exact rfl
  all_goals
    rename_i ha
    obtain rfl := Addr.eq_ofNat ha
    exact absurd h (Option.some_ne_none _)

/-- The row of a register is a bus cycle of its own, never a write cycle again nor an event. -/
theorem registerRow_request {addr : Addr} {value : Word} {c : Instr} (h : registerRow addr value = some c) :
    c.request ≠ .writeCycle ∧ c.request ≠ .event := by
  unfold registerRow at h
  split at h
  · cases h
    unfold commandOfCode
    split <;> exact ⟨nofun, nofun⟩
  all_goals cases h
  all_goals exact ⟨nofun, nofun⟩

/-- No register but STATUS and DATA shows anything of pattern memory (R167). -/
theorem State.regWord_of_pm (s : State) (p : PatternMemory) {addr : Addr} (hs : addr ≠ 0x02) (hd : addr ≠ 0x0E) :
    { s with pm := p }.regWord addr = s.regWord addr := by
  unfold State.regWord
  split
  case h_3 ha => exact absurd (BitVec.eq_of_toNat_eq ha) hs
  case h_13 ha => exact absurd (BitVec.eq_of_toNat_eq ha) hd
  all_goals rfl

/-- No register but STATUS and DATA reads otherwise for anything in pattern memory (R166, R167). -/
theorem State.readReg_of_pm (s : State) (p : PatternMemory) {addr : Addr} (hs : addr ≠ 0x02) (hd : addr ≠ 0x0E) :
    { s with pm := p }.readReg addr = s.readReg addr :=
  congrArg (fun w => if s.pins.resetLow then none else some w) (s.regWord_of_pm p hs hd)

end Sys2Proof.Machine
end

section
/-! The enables of the event unit: no operation inside the part changes them (R157), so an event of the part leaves them as they were, or
at 0 where it is a reset. -/

namespace Sys2Proof.Machine

@[simp] theorem EventUnit.raise_enables (u : EventUnit) (e : Event) : (u.raise e).enables = u.enables := rfl

@[simp] theorem State.raiseIf_enables (s : State) (c : Bool) (e : Event) :
    (s.raiseIf c e).events.enables = s.events.enables := raises_raiseIf.1

/-! ### Latch, commit and the ways a run moves on -/

@[simp] theorem State.commitPoint_enables (s : State) : s.commitPoint.events.enables = s.events.enables :=
  s.commitPoint_raises.1

@[simp] theorem State.latchRow_enables (s : State) (r : RowNum) (v : Lanes LaneState) :
    (s.latchRow r v).events.enables = s.events.enables := (s.latchRow_latched r v).2.1.1

@[simp] theorem State.latchNext_enables (s : State) (n : Nat) : (s.latchNext n).events.enables = s.events.enables := by
  simp [State.latchNext]

@[simp] theorem State.prepareRun_enables (s : State) : s.prepareRun.events.enables = s.events.enables := by
  simp [State.prepareRun]

@[simp] theorem State.runStart_enables (s : State) : s.runStart.events.enables = s.events.enables := by
  unfold State.runStart; dsimp only; split <;> simp

@[simp] theorem State.endRun_enables (s : State) : s.endRun.events.enables = s.events.enables := by
  simp [State.endRun]

@[simp] theorem State.haltRun_enables (s : State) : s.haltRun.events.enables = s.events.enables := by
  simp [State.haltRun]

@[simp] theorem State.enterTail_enables (s : State) : s.enterTail.events.enables = s.events.enables := by
  unfold State.enterTail; split <;> simp

@[simp] theorem State.beginPass_enables (s : State) : s.beginPass.events.enables = s.events.enables := by
  simp [State.beginPass]

@[simp] theorem State.headEnd_enables (s : State) : s.headEnd.events.enables = s.events.enables := by
  unfold State.headEnd; split <;> simp

@[simp] theorem State.boundary_enables (s : State) : s.boundary.events.enables = s.events.enables := by
  simp [State.boundary]

@[simp] theorem State.passBoundary_enables (s : State) : s.passBoundary.events.enables = s.events.enables := by
  unfold State.passBoundary; dsimp only; split <;> simp

@[simp] theorem State.answerRowEnd_enables (s : State) : s.answerRowEnd.events.enables = s.events.enables := by
  unfold State.answerRowEnd
  split
  · split <;> simp
  · split <;> simp
  · split <;> simp
  all_goals rfl

@[simp] theorem State.endRow_enables (s : State) : s.endRow.events.enables = s.events.enables := by
  unfold State.endRow; split <;> simp

/-! ### Fails and ticks -/

@[simp] theorem State.logFail_enables (s : State) (r : FailRecord) :
    (s.logFail r).events.enables = s.events.enables := by
  unfold State.logFail; split <;> simp

@[simp] theorem State.applyPolicy_enables (s : State) : s.applyPolicy.events.enables = s.events.enables := by
  unfold State.applyPolicy; split <;> simp

@[simp] theorem State.detectFail_enables (s : State) (k : FailKind) (r : RowNum) (v : Lanes Bool) :
    (s.detectFail k r v).events.enables = s.events.enables := by
  unfold State.detectFail; split <;> simp

@[simp] theorem State.strobeCompare_enables (s : State) (r : LatchedRow) :
    (s.strobeCompare r).events.enables = s.events.enables := by
  unfold State.strobeCompare; split <;> simp

@[simp] theorem State.dwellTick_enables (s : State) (r : LatchedRow) :
    (s.dwellTick r).events.enables = s.events.enables := by
  unfold State.dwellTick; dsimp only; split <;> simp

@[simp] theorem State.playTick_enables (s : State) : s.playTick.events.enables = s.events.enables := by
  unfold State.playTick
  split
  · rfl
  · split <;> simp

@[simp] theorem State.timeOut_enables (s : State) : s.timeOut.events.enables = s.events.enables := by
  unfold State.timeOut
  split
  · split <;> simp
  · rfl

@[simp] theorem State.takeTick_enables (s : State) : s.takeTick.events.enables = s.events.enables := by
  simp [State.takeTick, State.tickFront]

@[simp] theorem State.completePeriod_enables (s : State) : s.completePeriod.events.enables = s.events.enables := by
  unfold State.completePeriod
  split
  · split <;> simp
  · rfl

/-! ### Rows of pattern memory and pins -/

@[simp] theorem State.sweepRow_enables (s : State) : s.sweepRow.events.enables = s.events.enables := by
  unfold State.sweepRow
  split
  · rfl
  · split <;> simp

@[simp] theorem State.fillRow_enables (s : State) : s.fillRow.events.enables = s.events.enables := by
  unfold State.fillRow
  split
  · rfl
  · dsimp only
    split
    · rfl
    · split
      · rfl
      · split <;> simp

@[simp] theorem State.takeTrigEdge_enables (s : State) : s.takeTrigEdge.events.enables = s.events.enables := by
  unfold State.takeTrigEdge; split <;> simp

@[simp] theorem State.sampleTrig_enables (s : State) (level : Bool) :
    (s.sampleTrig level).events.enables = s.events.enables := by
  unfold State.sampleTrig; dsimp only; split <;> simp

@[simp] theorem State.reachPulledLevel_enables (s : State) (n : Lane) :
    (s.reachPulledLevel n).events.enables = s.events.enables := by
  unfold State.reachPulledLevel; split <;> rfl

/-- An event of the part sets no enable: the enables stay, or a reset clears them (R157, R163). -/
theorem exec_event_enables {c : Instr} (h : c.request = .event) {s t : State} (he : exec c s = .next t) :
    t.events.enables = s.events.enables ∨ t.events.enables = 0 := by
  cases c with
  | powerOn | resetNAssert => cases he; exact .inr rfl
  | resetNRelease =>
    cases he
    unfold State.releaseReset
    split
    · exact .inr rfl
    · exact .inl rfl
  | gateChange | markPulseEnd | passmarkPulseEnd => cases he; exact .inl rfl
  | sweepRowWrite => cases he; exact .inl s.sweepRow_enables
  | fillRowWrite => cases he; exact .inl s.fillRow_enables
  | commitApplicationEnd => cases he; exact .inl (by simp)
  | trigEdge level => cases he; exact .inl (s.sampleTrig_enables level)
  | tick => cases he; exact .inl s.completePeriod_enables
  | waitTimeout => cases he; exact .inl s.timeOut_enables
  | rowEnd => cases he; exact .inl s.endRow_enables
  | uutLaneDriveChange n d => cases he; exact .inl (by simp [State.changeUutDrive])
  | pulledLevelReached n => cases he; exact .inl (s.reachPulledLevel_enables n)
  | _ => cases h

/-- With every enable at 0 no flag pulls IRQ_N low (R162). -/
theorem State.irqLow_of_enables_zero {s : State} (h : s.events.enables = 0) : s.irqLow = false := by
  simp [State.irqLow, h]

end Sys2Proof.Machine
end

section
/-! The host's requests during the initialization sweep (R10). -/

namespace Sys2Proof.Machine

/-- The sweep is in progress and RESET_N is high: the part takes bus cycles, and refuses them (R10). -/
structure Sweeping (s : State) : Prop where
  resetHigh : s.pins.resetLow = false
  inProgress : s.pm.sweep.isSome = true

/-- During the sweep a COMMAND write is refused, whatever the code (R10). -/
theorem Sweeping.exec_command {s : State} (h : Sweeping s) {c : Instr} (hc : c.request = .command) :
    exec c s = .next (s.report .refusedBusy) := by
  obtain ⟨f, hf⟩ := exec_of_command hc s
  rw [hf, s.command_sweep f h.resetHigh h.inProgress]

/-- During the sweep a register write is ignored with ACCERR (R10). -/
theorem Sweeping.exec_registerWrite {s : State} (h : Sweeping s) {c : Instr} (hc : c.request = .registerWrite) :
    exec c s = .next (s.raise .accErr) := by
  obtain ⟨f, hf⟩ := exec_of_registerWrite hc s
  rw [hf, s.regWrite_sweep f h.resetHigh h.inProgress]

/-- A write to EVENTS is taken during the sweep (R10, R158). -/
theorem Sweeping.exec_eventsWrite {s : State} (h : Sweeping s) (ones : Word) :
    exec (.eventsWrite ones) s = .next { s with events := s.events.clear ones } := by
  show Host.Outcome.next (s.writeEvents ones) = _
  simp [State.writeEvents, State.busCycle, h.resetHigh]

/-- During the sweep a DATA write is refused in either target (R10, R28). -/
theorem Sweeping.exec_dataWrite {s : State} (h : Sweeping s) (word : Word) :
    exec (.dataWrite word) s = .next (s.raise .accErr) := by
  have hr : s.writeRefused = true := by simp [State.writeRefused, h.inProgress]
  show Host.Outcome.next (s.busCycle fun s => s.writeData word) = _
  simp [State.busCycle, State.writeData, h.resetHigh, hr]

/-- During the sweep a DATA read is refused and returns 0x0000 (R10, R28). -/
theorem Sweeping.exec_dataRead {s : State} (h : Sweeping s) :
    exec .dataRead s = .next ((s.answerRead 0).raise .accErr) := by
  have hr : s.readRefused = true := by simp [State.readRefused, h.inProgress]
  show Host.Outcome.next (s.busCycle State.readData) = _
  simp [State.busCycle, State.readData, h.resetHigh, hr]

/-- During the sweep a bus cycle of a row of its own changes no enable (R10). -/
theorem Sweeping.exec_bus_enables {s t : State} (h : Sweeping s) {c : Instr} (hw : c.request ≠ .writeCycle)
    (hv : c.request ≠ .event) (he : exec c s = .next t) : t.events.enables = s.events.enables := by
  cases hc : c.request with
  | command => rw [h.exec_command hc] at he; cases he; rfl
  | registerWrite => rw [h.exec_registerWrite hc] at he; cases he; rfl
  | eventsWrite =>
    cases c with
    | eventsWrite ones => rw [h.exec_eventsWrite] at he; cases he; rfl
    | _ => cases hc
  | dataTransfer =>
    cases c with
    | dataWrite word => rw [h.exec_dataWrite] at he; cases he; rfl
    | dataRead => rw [h.exec_dataRead] at he; cases he; rfl
    | _ => cases hc
  | writeCycle => exact absurd hc hw
  | event => exact absurd hc hv

/-- During the sweep no command sets an enable: they stay, or a reset clears them (R10, R163). -/
theorem Sweeping.exec_enables {s t : State} (h : Sweeping s) {c : Instr} (he : exec c s = .next t) :
    t.events.enables = s.events.enables ∨ t.events.enables = 0 := by
  cases hc : c.request with
  | event => exact exec_event_enables hc he
  | writeCycle =>
    cases c with
    | registerWrite addr value =>
      cases hr : registerRow addr value with
      | none => rw [exec_registerWrite_of_no_row hr] at he; cases he; exact .inl rfl
      | some d =>
        rw [exec_registerWrite_of_row hr] at he
        obtain ⟨hw, hv⟩ := registerRow_request hr
        exact .inl (h.exec_bus_enables hw hv he)
    | _ => cases hc
  | _ => exact .inl (h.exec_bus_enables (by simp [hc]) (by simp [hc]) he)

/-- A TRIG edge in IDLE moves the pin and nothing else (R84). -/
theorem exec_trigEdge_of_idle {s : State} (h : s.run.seq = .idle) (level : Bool) :
    exec (.trigEdge level) s = .next { s with pins := { s.pins with trig := level } } := by
  show Host.Outcome.next (s.sampleTrig level) = _
  simp [State.sampleTrig, State.takeTrigEdge, h]

/-- Settles O10: each row of the table of R10 by the request it is, and IRQ_N by the enables, which no command sets during the sweep. -/
theorem duringTheSweepRequestsAreRefused : Obligations.DuringTheSweepRequestsAreRefused := by
  unfold Obligations.DuringTheSweepRequestsAreRefused
  intro s hreset hsweep
  have h : Sweeping s := ⟨hreset, hsweep⟩
  refine ⟨fun c hc => h.exec_command hc, h.exec_eventsWrite, fun c hc => h.exec_registerWrite hc, ?_, h.exec_dataWrite,
    h.exec_dataRead, ?_, fun hidle => exec_trigEdge_of_idle hidle, ?_⟩
  · intro addr value hrow
    exact exec_registerWrite_of_no_row hrow s
  · intro addr hstatus hdata
    exact (s.readReg_of_pm _ hstatus hdata).symm
  · intro hzero c t he
    apply State.irqLow_of_enables_zero
    rcases h.exec_enables he with hkept | hcleared
    · exact hkept.trans hzero
    · exact hcleared

end Sys2Proof.Machine
end

section
/-! FILL at pattern memory (R12). -/

namespace Sys2Proof.Machine

/-- The fill that FILL begins: its own copy of the window in effect, and the value (R12, R13). -/
def Window.newFill (w : Window) (v : FillValue) : Fill :=
  ⟨w.rowStart, w.rowEnd, w.laneStart, w.laneEnd, w.mode.direction, v, firstFillRow w, false⟩

theorem firstFillRow_eq (w : Window) :
    firstFillRow w = if w.mode.direction = Direction.ascending then w.rowStart else w.rowEnd := by
  unfold firstFillRow
  split <;> simp [*]

/-- FILL with a fill in progress (R12). -/
theorem State.fillCommand_busy (s : State) (h : s.pm.fill.isSome = true) : s.fillCommand = (s, .refusedBusy) := by
  simp [State.fillCommand, h]

/-- FILL with a value the plane does not take (R12). -/
theorem State.fillCommand_invalid (s : State) (h : s.pm.fill = none) (hv : s.window.fillOperand = none) :
    s.fillCommand = (s, .refusedWindow) := by
  simp [State.fillCommand, h, hv]

/-- FILL accepted (R12). -/
theorem State.fillCommand_accepted (s : State) (h : s.pm.fill = none) {v : FillValue} (hv : s.window.fillOperand = some v) :
    s.fillCommand = ({ s with pm := { s.pm with fill := some (s.window.eff.newFill v) } }, .accepted) := by
  simp [State.fillCommand, h, hv, Window.newFill]

/-- The operand of a fill in the cells plane is the code in bits 2:0 of FILL_VALUE (R12). -/
theorem AccessWindow.fillOperand_cells (w : AccessWindow) (h : w.eff.mode.plane = .cells) :
    w.fillOperand = (CellCode.ofBits (w.fillValue.extractLsb' 0 3)).map .cells := by
  simp [AccessWindow.fillOperand, h]

/-- The operand of a fill in the plane of attributes is the record in FILL_VALUE (R12). -/
theorem AccessWindow.fillOperand_attributes (w : AccessWindow) (h : w.eff.mode.plane = .attributes) :
    w.fillOperand = some (.attributes (.ofWord w.fillValue)) := by
  simp [AccessWindow.fillOperand, h]

/-- Settles O13: the checks of FILL in their order, the operand of the fill by the plane of the window in effect. -/
theorem fillTakesItsOwnCopy : Obligations.FillTakesItsOwnCopy := by
  unfold Obligations.FillTakesItsOwnCopy
  intro s
  refine ⟨fun hreset hsweep => (Sweeping.mk hreset hsweep).exec_command rfl, fun hready => ?_⟩
  have hexec : exec .fill s = .next (s.fillCommand.1.report s.fillCommand.2) :=
    congrArg Host.Outcome.next (s.command_ready _ hready)
  refine ⟨fun hbusy => ?_, fun hfill hplane hcode => ?_, fun v hfill hv => ?_⟩
  · rw [hexec, s.fillCommand_busy hbusy]
  · have hnone : s.window.fillOperand = none := by rw [s.window.fillOperand_cells hplane, hcode]; rfl
    rw [hexec, s.fillCommand_invalid hfill hnone]
  · have hsome : s.window.fillOperand = some v := by
      rcases hv with ⟨hplane, c, hcode, rfl⟩ | ⟨hplane, rfl⟩
      · rw [s.window.fillOperand_cells hplane, hcode]; rfl
      · exact s.window.fillOperand_attributes hplane
    rw [hexec, s.fillCommand_accepted hfill hsome, Window.newFill, firstFillRow_eq]

end Sys2Proof.Machine
end

section
/-! The walk of a window in closed form: where each move stands, by rows and lanes counted from the origin (R23 to R27). -/

namespace Sys2Proof.Machine

/-! ### Counting places row by row -/

/-- One place on within a row of L: the same row, the next column. -/
theorem succ_div_mod_of_lt {k L : Nat} (h : k % L + 1 < L) : (k + 1) / L = k / L ∧ (k + 1) % L = k % L + 1 := by
  have hk := Nat.div_add_mod k L
  exact (Nat.div_mod_unique (by omega)).2 ⟨by omega, h⟩

/-- One place on from the end of a row of L: the next row, column 0. -/
theorem succ_div_mod_of_eq {k L : Nat} (h : k % L + 1 = L) : (k + 1) / L = k / L + 1 ∧ (k + 1) % L = 0 := by
  have hk := Nat.div_add_mod k L
  exact (Nat.div_mod_unique (by omega)).2 ⟨by rw [Nat.mul_add]; omega, by omega⟩

/-- Of R rows of L, the last column of the last row is the last place. -/
theorem last_div_mod_iff {k R L : Nat} (h : k < R * L) : (k / L + 1 = R ∧ k % L + 1 = L) ↔ k + 1 = R * L := by
  have hL : 0 < L := Nat.pos_of_lt_mul_left h
  have hcol : k % L + 1 ≤ L := Nat.mod_lt k hL
  rcases hcol.lt_or_eq with hlt | heq
  · have hmod := (succ_div_mod_of_lt hlt).2
    refine ⟨fun hlast => absurd hlast.2 hlt.ne, fun hlast => ?_⟩
    rw [hlast, Nat.mul_mod_left] at hmod
    omega
  · have hdiv := (succ_div_mod_of_eq heq).1
    have hmul : (k + 1) / L * L = k + 1 := Nat.div_mul_cancel (Nat.dvd_of_mod_eq_zero (succ_div_mod_of_eq heq).2)
    refine ⟨fun hlast => ?_, fun hlast => ⟨?_, heq⟩⟩
    · rw [← hmul, hdiv, hlast.1]
    · rw [← hdiv, hlast, Nat.mul_div_cancel _ hL]

/-! ### Rows and lanes from the origin -/

/-- R, the rows of a window. -/
def Window.rowCount (w : Window) : Nat := w.rowEnd.val - w.rowStart.val + 1

/-- L, the lanes of a window. -/
def Window.laneCount (w : Window) : Nat := w.laneEnd.val - w.laneStart.val + 1

/-- The length of the walk: every place of the window, or every row in the plane of attributes (R24, R25). -/
def Window.walkLength (w : Window) : Nat :=
  if w.mode.plane = .cells then w.rowCount * w.laneCount else w.rowCount

/-- The number of the row i rows on from the origin in the row direction (R23). -/
def Window.walkRow (w : Window) (i : Nat) : Nat :=
  if w.mode.direction = Direction.ascending then w.rowStart.val + i else w.rowEnd.val - i

/-- A place stands i rows in the row direction and j lanes on from the origin. -/
structure Window.Stands (w : Window) (p : Place) (i j : Nat) : Prop where
  row : p.row.val = w.walkRow i
  lane : p.lane.val = w.laneStart.val + j

/-- The rows and lanes of a window in order, as SET WINDOW demands (R21). -/
structure Window.Ordered (w : Window) : Prop where
  rows : w.rowStart ≤ w.rowEnd
  lanes : w.laneStart ≤ w.laneEnd

theorem Window.originRow_val (w : Window) : w.originRow.val = w.walkRow 0 := by
  unfold Window.originRow Window.walkRow
  split <;> simp [*]

theorem Window.stands_origin (w : Window) : w.Stands w.origin 0 0 := ⟨w.originRow_val, rfl⟩

section
variable {w : Window} {p : Place} {i j : Nat}

/-- Row i is the far row exactly when it is the last of the R rows (R23). -/
theorem Window.Stands.row_eq_farRow_iff (h : w.Stands p i j) (hw : w.Ordered) (hi : i < w.rowCount) :
    p.row = w.farRow ↔ i + 1 = w.rowCount := by
  have hrow := h.row
  have hrows : w.rowStart.val ≤ w.rowEnd.val := hw.rows
  unfold Window.walkRow at hrow
  unfold Window.rowCount at hi ⊢
  unfold Window.farRow
  cases hd : w.mode.direction <;> simp [hd] at hrow <;> simp only [Fin.ext_iff] <;> omega

/-- Lane j is the lane end exactly when it is the last of the L lanes. -/
theorem Window.Stands.lane_eq_laneEnd_iff (h : w.Stands p i j) (hw : w.Ordered) :
    p.lane = w.laneEnd ↔ j + 1 = w.laneCount := by
  have hlane := h.lane
  have hlanes : w.laneStart.val ≤ w.laneEnd.val := hw.lanes
  unfold Window.laneCount
  rw [Fin.ext_iff]
  omega

/-- One row on is the next row in the row direction (R24). -/
theorem Window.Stands.nextRow_val (h : w.Stands p i j) (hi : i + 1 < w.rowCount) :
    (w.nextRow p.row).val = w.walkRow (i + 1) := by
  have hrow := h.row
  have hend := w.rowEnd.isLt
  unfold Window.rowCount at hi
  unfold Window.walkRow at hrow ⊢
  unfold Window.nextRow
  cases hd : w.mode.direction <;> simp [hd] at hrow ⊢
  · rw [Fin.val_add_one_of_lt' (by omega), hrow, Nat.add_assoc]
  · rw [Fin.sub_val_of_le (by rw [Fin.le_def, Fin.val_one]; omega), Fin.val_one]
    omega

/-- One lane on. -/
theorem Window.Stands.lane_succ_val (h : w.Stands p i j) (hj : j + 1 < w.laneCount) :
    (p.lane + 1).val = w.laneStart.val + (j + 1) := by
  have hlane := h.lane
  have hend := w.laneEnd.isLt
  unfold Window.laneCount at hj
  rw [Fin.val_add_one_of_lt' (by omega)]
  omega
end

/-! ### The walk -/

/-- How many rows and lanes move number k of the walk is from the origin (R24, R25, R26). -/
def Window.walkIndex (w : Window) (k : Nat) : Nat × Nat :=
  match w.mode.plane, w.mode.traversal with
  | .cells, .laneFirst => (k / w.laneCount, k % w.laneCount)
  | .cells, .rowFirst => (k % w.rowCount, k / w.rowCount)
  | .attributes, _ => (k, 0)

/-- A place is where move number k of the walk leads. -/
def Window.StandsAt (w : Window) (p : Place) (k : Nat) : Prop := w.Stands p (w.walkIndex k).1 (w.walkIndex k).2

section
variable {w : Window} {p : Place} {k : Nat}

theorem Window.standsAt_cells_laneFirst (hp : w.mode.plane = .cells) (ht : w.mode.traversal = .laneFirst) :
    w.StandsAt p k ↔ w.Stands p (k / w.laneCount) (k % w.laneCount) := by
  simp [Window.StandsAt, Window.walkIndex, hp, ht]

theorem Window.standsAt_cells_rowFirst (hp : w.mode.plane = .cells) (ht : w.mode.traversal = .rowFirst) :
    w.StandsAt p k ↔ w.Stands p (k % w.rowCount) (k / w.rowCount) := by
  simp [Window.StandsAt, Window.walkIndex, hp, ht]

theorem Window.standsAt_attributes (hp : w.mode.plane = .attributes) : w.StandsAt p k ↔ w.Stands p k 0 := by
  simp [Window.StandsAt, Window.walkIndex, hp]

theorem Window.standsAt_origin (w : Window) : w.StandsAt w.origin 0 := by
  unfold Window.StandsAt Window.walkIndex
  split <;> simpa using w.stands_origin

theorem Window.walkLength_cells (hp : w.mode.plane = .cells) : w.walkLength = w.rowCount * w.laneCount := by
  simp [Window.walkLength, hp]

theorem Window.walkLength_attributes (hp : w.mode.plane = .attributes) : w.walkLength = w.rowCount := by
  simp [Window.walkLength, hp]

theorem Window.walkLength_pos (w : Window) : 0 < w.walkLength := by
  unfold Window.walkLength
  split
  · exact Nat.mul_pos (Nat.succ_pos _) (Nat.succ_pos _)
  · exact Nat.succ_pos _

/-- Only the place of the last move is the last of the walk (R24, R25, R26). -/
theorem Window.StandsAt.atLast_iff (h : w.StandsAt p k) (hw : w.Ordered) (hk : k < w.walkLength) :
    w.atLast p = true ↔ k + 1 = w.walkLength := by
  cases hp : w.mode.plane with
  | attributes =>
    rw [Window.standsAt_attributes hp] at h
    rw [Window.walkLength_attributes hp] at hk ⊢
    simp [Window.atLast, hp, h.row_eq_farRow_iff hw hk]
  | cells =>
    rw [Window.walkLength_cells hp] at hk ⊢
    cases ht : w.mode.traversal with
    | laneFirst =>
      rw [Window.standsAt_cells_laneFirst hp ht] at h
      have hi : k / w.laneCount < w.rowCount := Nat.div_lt_of_lt_mul (by rwa [Nat.mul_comm])
      simp [Window.atLast, hp, h.row_eq_farRow_iff hw hi, h.lane_eq_laneEnd_iff hw, last_div_mod_iff hk]
    | rowFirst =>
      rw [Window.standsAt_cells_rowFirst hp ht] at h
      rw [Nat.mul_comm] at hk ⊢
      have hi : k % w.rowCount < w.rowCount := Nat.mod_lt k (Nat.succ_pos _)
      simp [Window.atLast, hp, h.row_eq_farRow_iff hw hi, h.lane_eq_laneEnd_iff hw, ← last_div_mod_iff hk, and_comm]

/-- A move from the last place returns to the origin (R27). -/
theorem Window.advance_of_atLast (h : w.atLast p = true) : w.advance p = w.origin := by
  simp [Window.advance, h]

/-- A move from any other place of the walk leads to the next one (R24, R25, R26). -/
theorem Window.StandsAt.advance (h : w.StandsAt p k) (hw : w.Ordered) (hk : k + 1 < w.walkLength) :
    w.StandsAt (w.advance p) (k + 1) := by
  have hlast : ¬ w.atLast p = true := fun hl => hk.ne ((h.atLast_iff hw (Nat.lt_of_succ_lt hk)).1 hl)
  cases hp : w.mode.plane with
  | attributes =>
    rw [Window.standsAt_attributes hp] at h ⊢
    rw [Window.walkLength_attributes hp] at hk
    simpa [Window.advance, hlast, hp] using (⟨h.nextRow_val hk, h.lane⟩ : w.Stands ⟨w.nextRow p.row, p.lane⟩ (k + 1) 0)
  | cells =>
    rw [Window.walkLength_cells hp] at hk
    cases ht : w.mode.traversal with
    | laneFirst =>
      rw [Window.standsAt_cells_laneFirst hp ht] at h ⊢
      have hcol : k % w.laneCount + 1 ≤ w.laneCount := Nat.mod_lt k (Nat.succ_pos _)
      have hend := h.lane_eq_laneEnd_iff hw
      rcases hcol.lt_or_eq with hlt | heq
      · rw [(succ_div_mod_of_lt hlt).1, (succ_div_mod_of_lt hlt).2]
        simpa [Window.advance, hlast, hp, ht, hend, hlt.ne] using
          (⟨h.row, h.lane_succ_val hlt⟩ : w.Stands ⟨p.row, p.lane + 1⟩ _ _)
      · have hrow : (k + 1) / w.laneCount < w.rowCount := Nat.div_lt_of_lt_mul (by rwa [Nat.mul_comm])
        rw [(succ_div_mod_of_eq heq).1] at hrow ⊢
        rw [(succ_div_mod_of_eq heq).2]
        simpa [Window.advance, hlast, hp, ht, hend, heq] using
          (⟨h.nextRow_val hrow, rfl⟩ : w.Stands ⟨w.nextRow p.row, w.laneStart⟩ _ 0)
    | rowFirst =>
      rw [Window.standsAt_cells_rowFirst hp ht] at h ⊢
      have hcol : k % w.rowCount + 1 ≤ w.rowCount := Nat.mod_lt k (Nat.succ_pos _)
      have hfar := h.row_eq_farRow_iff hw hcol
      rcases hcol.lt_or_eq with hlt | heq
      · rw [(succ_div_mod_of_lt hlt).1, (succ_div_mod_of_lt hlt).2]
        simpa [Window.advance, hlast, hp, ht, hfar, hlt.ne] using
          (⟨h.nextRow_val hlt, h.lane⟩ : w.Stands ⟨w.nextRow p.row, p.lane⟩ _ _)
      · have hlane : (k + 1) / w.rowCount < w.laneCount := Nat.div_lt_of_lt_mul hk
        rw [(succ_div_mod_of_eq heq).1] at hlane ⊢
        rw [(succ_div_mod_of_eq heq).2]
        simpa [Window.advance, hlast, hp, ht, hfar, heq] using
          (⟨w.originRow_val, h.lane_succ_val hlane⟩ : w.Stands ⟨w.originRow, p.lane + 1⟩ 0 _)

end

/-- The last of some moves comes after all the others. -/
theorem Window.after_succ (w : Window) (p : Place) (k : Nat) : w.after p (k + 1) = w.advance (w.after p k) := by
  induction k generalizing p with
  | zero => rfl
  | succ k ih => exact ih (w.advance p)

/-- Move number k from the origin, short of the walk's length, leads to its place of the walk. -/
theorem Window.standsAt_after (w : Window) (hw : w.Ordered) {k : Nat} (hk : k < w.walkLength) :
    w.StandsAt (w.after w.origin k) k := by
  induction k with
  | zero => exact w.standsAt_origin
  | succ k ih =>
    rw [Window.after_succ]
    exact (ih (Nat.lt_of_succ_lt hk)).advance hw hk

/-- A walk of its full length returns to the origin (R27). -/
theorem Window.after_walkLength (w : Window) (hw : w.Ordered) : w.after w.origin w.walkLength = w.origin := by
  obtain ⟨k, hk⟩ : ∃ k, w.walkLength = k + 1 := Nat.exists_eq_succ_of_ne_zero w.walkLength_pos.ne'
  have hlt : k < w.walkLength := by omega
  rw [hk, Window.after_succ, Window.advance_of_atLast (((w.standsAt_after hw hlt).atLast_iff hw hlt).2 hk.symm)]

/-- Settles O20: each move stands where the walk's index says, by induction on the moves. -/
theorem walkVisitsPlacesInOrder : Obligations.WalkVisitsPlacesInOrder := by
  unfold Obligations.WalkVisitsPlacesInOrder
  intro w hrows hlanes rows lanes length rowAt
  have hw : w.Ordered := ⟨hrows, hlanes⟩
  refine ⟨fun k hk => ?_, w.after_walkLength hw⟩
  have h : w.StandsAt (w.after w.origin k) k := w.standsAt_after hw hk
  refine ⟨fun hp ht => ?_, fun hp ht => ?_, fun hp => ?_, h.atLast_iff hw hk⟩
  · rw [Window.standsAt_cells_laneFirst hp ht] at h
    exact ⟨h.row, h.lane⟩
  · rw [Window.standsAt_cells_rowFirst hp ht] at h
    exact ⟨h.row, h.lane⟩
  · rw [Window.standsAt_attributes hp] at h
    exact ⟨h.row, Fin.ext h.lane⟩

end Sys2Proof.Machine
end

section
/-! Setting the window: the window registers (R20), SET WINDOW (R21, R22) and SEEK (R23). -/

namespace Sys2Proof.Machine

/-! ### The fields of WIN_LANES and WIN_MODE -/

theorem laneStartOf_val (value : Word) : (laneStartOf value).val = value.toNat % 16 := by
  simp [laneStartOf]

theorem laneEndOf_val (value : Word) : (laneEndOf value).val = value.toNat / 16 % 16 := by
  simp [laneEndOf, Nat.shiftRight_eq_div_pow]

theorem laneStartOf_bits (value : Word) : BitVec.ofNat 4 (laneStartOf value).val = value.extractLsb' 0 4 :=
  BitVec.eq_of_toNat_eq (by simp [laneStartOf_val])

theorem laneEndOf_bits (value : Word) : BitVec.ofNat 4 (laneEndOf value).val = value.extractLsb' 4 4 :=
  BitVec.eq_of_toNat_eq (by simp [laneEndOf_val, Nat.shiftRight_eq_div_pow])

/-- WIN_LANES holds the lane start in bits 3:0 and the lane end in bits 7:4; the bits above read 0 (R174). -/
theorem lanesWord_getLsbD (laneStart laneEnd : Lane) (i : Nat) : (lanesWord laneStart laneEnd).getLsbD i =
    if i < 4 then (BitVec.ofNat 4 laneStart.val).getLsbD i else (BitVec.ofNat 4 laneEnd.val).getLsbD (i - 4) := by
  refine (BitVec.getLsbD_append (x := 0#8 ++ BitVec.ofNat 4 laneEnd.val)).trans ?_
  rw [BitVec.getLsbD_append, BitVec.getLsbD_zero]
  split
  · rfl
  · split
    · rfl
    · next h => exact (BitVec.getLsbD_of_ge _ _ (Nat.le_of_not_lt h)).symm

/-- WIN_LANES keeps the low eight bits of the value written (R20). -/
theorem lanesWord_of_value (value : Word) : lanesWord (laneStartOf value) (laneEndOf value) = value &&& 0x00FF := by
  apply BitVec.eq_of_getLsbD_eq
  intro i hi
  rw [lanesWord_getLsbD, laneStartOf_bits, laneEndOf_bits]
  interval_cases i <;> simp

theorem WindowMode.ofWord_traversal (value : Word) :
    (WindowMode.ofWord value).traversal = .rowFirst ↔ value.getLsbD 0 = true := by
  simp [WindowMode.ofWord]

theorem WindowMode.ofWord_direction (value : Word) :
    (WindowMode.ofWord value).direction = .descending ↔ value.getLsbD 1 = true := by
  simp [WindowMode.ofWord]

theorem WindowMode.ofWord_plane (value : Word) :
    (WindowMode.ofWord value).plane = .attributes ↔ value.getLsbD 2 = true := by
  simp [WindowMode.ofWord]

theorem WindowMode.ofWord_target (value : Word) :
    (WindowMode.ofWord value).target = .staged ↔ value.getLsbD 3 = true := by
  simp [WindowMode.ofWord]

theorem WindowMode.ofWord_cells (value : Word) :
    (WindowMode.ofWord value).cells.toNat = value.toNat / 16 % 8 := by
  simp [WindowMode.ofWord, Nat.shiftRight_eq_div_pow]

/-- WIN_MODE holds its one-bit fields in bits 3:0 and the cells per transfer in bits 6:4; the bits above read 0 (R174). -/
theorem WindowMode.toWord_getLsbD (m : WindowMode) (i : Nat) : m.toWord.getLsbD i =
    match i with
    | 0 => decide (m.traversal = .rowFirst)
    | 1 => decide (m.direction = .descending)
    | 2 => decide (m.plane = .attributes)
    | 3 => decide (m.target = .staged)
    | j + 4 => m.cells.getLsbD j := by
  refine (BitVec.getLsbD_append (x := 0#9 ++ m.cells ++ BitVec.ofBool (m.target == .staged) ++
    BitVec.ofBool (m.plane == .attributes) ++ BitVec.ofBool (m.direction == .descending))).trans ?_
  simp only [BitVec.getLsbD_append]
  match i with
  | 0 | 1 | 2 | 3 => simp [beq_eq_decide]
  | j + 4 => simpa using BitVec.lt_of_getLsbD

/-- WIN_MODE keeps the low seven bits of the value written (R20). -/
theorem WindowMode.toWord_ofWord (value : Word) : (WindowMode.ofWord value).toWord = value &&& 0x007F := by
  apply BitVec.eq_of_getLsbD_eq
  intro i hi
  rw [WindowMode.toWord_getLsbD]
  simp only [WindowMode.ofWord_traversal, WindowMode.ofWord_direction, WindowMode.ofWord_plane, WindowMode.ofWord_target]
  interval_cases i <;> simp [WindowMode.ofWord]

/-! ### Window register writes -/

/-- A ready part stores a value written to a window register (R20). -/
theorem exec_windowRegisterWrite {s : State} (h : Ready s) (reg : WindowReg) (value : Word) :
    exec (.windowRegisterWrite reg value) s = .next { s with window := s.window.write reg value } :=
  congrArg Host.Outcome.next (s.regWrite_ready _ h)

/-- Settles O18: each register by the field it stores, the two with fields by their layouts; the sweep refuses every one of them. -/
theorem windowRegisterWriteHolds : Obligations.WindowRegisterWriteHolds := by
  unfold Obligations.WindowRegisterWriteHolds
  intro s value
  refine ⟨fun h => ⟨exec_windowRegisterWrite h .rowStart value, exec_windowRegisterWrite h .rowEnd value,
    ⟨_, exec_windowRegisterWrite h .lanes value, rfl, laneStartOf_val value, laneEndOf_val value, lanesWord_of_value value⟩,
    ⟨_, exec_windowRegisterWrite h .mode value, rfl, WindowMode.ofWord_traversal value, WindowMode.ofWord_direction value,
      WindowMode.ofWord_plane value, WindowMode.ofWord_target value, WindowMode.ofWord_cells value,
      WindowMode.toWord_ofWord value⟩,
    exec_windowRegisterWrite h .fillValue value⟩, fun hreset hsweep reg => ?_, rfl, rfl, rfl⟩
  exact (Sweeping.mk hreset hsweep).exec_registerWrite rfl

/-! ### SET WINDOW and SEEK -/

theorem HeldWindow.valid_iff (h : HeldWindow) : h.valid = true ↔
    h.rowStart.toNat ≤ 4095 ∧ h.rowEnd.toNat ≤ 4095 ∧ h.rowStart.toNat ≤ h.rowEnd.toNat ∧ h.laneStart ≤ h.laneEnd ∧
      1 ≤ h.mode.cells.toNat ∧ h.mode.cells.toNat ≤ 5 := by
  simp only [HeldWindow.valid, Bool.and_eq_true, decide_eq_true_eq, and_assoc, Fin.le_def]

/-- A row of the memory is its own number (R1). -/
theorem RowNum.ofSum_val {n : Nat} (h : n ≤ 4095) : (RowNum.ofSum n).val = n := by
  rw [RowNum.ofSum, Fin.val_ofNat]
  omega

/-- The origin row is the row start of an ascending walk and the row end of a descending one (R23). -/
theorem Window.originRow_eq (w : Window) :
    w.originRow = if w.mode.direction = Direction.ascending then w.rowStart else w.rowEnd := by
  unfold Window.originRow
  split <;> simp [*]

/-- With a fill in progress SET WINDOW is refused (R21). -/
theorem State.setWindow_busy {s : State} (h : s.pm.fill.isSome = true) : s.setWindow = (s, .refusedBusy) := by
  simp [State.setWindow, h]

/-- SET WINDOW with a held window that is no window (R21). -/
theorem State.setWindow_invalid {s : State} (h : s.pm.fill = none) (hv : ¬ s.window.held.valid = true) :
    s.setWindow = (s, .refusedWindow) := by
  simp [State.setWindow, h, hv]

/-- SET WINDOW accepted (R22). -/
theorem State.setWindow_accepted {s : State} (h : s.pm.fill = none) (hv : s.window.held.valid = true) :
    s.setWindow = ({ s with window := { s.window with
      eff := s.window.held.inEffect, cursor := s.window.held.inEffect.origin } }, .accepted) := by
  simp [State.setWindow, h, hv]

/-- With a fill in progress SEEK is refused (R23). -/
theorem State.seek_busy {s : State} (h : s.pm.fill.isSome = true) : s.seek = (s, .refusedBusy) := by
  simp [State.seek, h]

/-- SEEK accepted (R23). -/
theorem State.seek_accepted {s : State} (h : s.pm.fill = none) :
    s.seek = ({ s with window := { s.window with cursor := s.window.eff.origin } }, .accepted) := by
  simp [State.seek, h]

/-- During the sweep and with a fill in progress a command that a fill refuses is refused with REFUSED_BUSY (R10, R21). -/
theorem State.command_busy {s : State} {f : State → State × CmdOutcome} (hreset : s.pins.resetLow = false)
    (hbusy : s.pm.sweep.isSome = true ∨ s.pm.fill.isSome = true)
    (hf : s.pm.fill.isSome = true → f s = (s, .refusedBusy)) : s.command f = s.report .refusedBusy := by
  cases hsweep : s.pm.sweep.isSome with
  | true => exact s.command_sweep f hreset hsweep
  | false =>
    have hfill : s.pm.fill.isSome = true := by simpa [hsweep] using hbusy
    rw [s.command_ready f ⟨hreset, by simpa using hsweep⟩, hf hfill]

/-- Settles O19: the refusals in the order of the checks, then the held window taken whole with the cursor at its origin. -/
theorem setWindowAndSeekPlaceTheCursor : Obligations.SetWindowAndSeekPlaceTheCursor := by
  unfold Obligations.SetWindowAndSeekPlaceTheCursor
  intro s
  refine ⟨fun hreset hbusy => ⟨?_, ?_⟩, fun hready hfill => ⟨?_, ?_⟩⟩
  · exact congrArg Host.Outcome.next (State.command_busy hreset hbusy State.setWindow_busy)
  · exact congrArg Host.Outcome.next (State.command_busy hreset hbusy State.seek_busy)
  · intro h valid
    have hexec : exec .setWindow s = .next (s.setWindow.1.report s.setWindow.2) :=
      congrArg Host.Outcome.next (s.command_ready _ hready)
    refine ⟨fun hv => ?_, fun hv => ?_⟩
    · rw [hexec, State.setWindow_invalid hfill (mt h.valid_iff.1 hv)]
    · rw [State.setWindow_accepted hfill (h.valid_iff.2 hv)] at hexec
      obtain ⟨hstart, hend, -⟩ := hv
      exact ⟨_, hexec, rfl, RowNum.ofSum_val hstart, RowNum.ofSum_val hend, rfl, rfl, rfl, h.inEffect.originRow_eq, rfl⟩
  · have hexec : exec .seek s = .next (s.seek.1.report s.seek.2) := congrArg Host.Outcome.next (s.command_ready _ hready)
    rw [hexec, State.seek_accepted hfill, Window.origin, Window.originRow_eq]

end Sys2Proof.Machine
end

section
/-! Frames joined: what two operations in a row leave unchanged. -/

namespace Sys2Proof

open Machine

/-- Two operations leave what both leave. -/
theorem SameBut.trans {a b : List Part} {s t u : State} (h : SameBut a s t) (h' : SameBut b t u) : SameBut (a ++ b) s u := by
  intro p hp
  rw [List.mem_append, not_or] at hp
  have hst := h p hp.1
  have htu := h' p hp.2
  cases p <;> exact Eq.trans htu hst

/-- A frame may name more parts than change. -/
theorem SameBut.mono {a b : List Part} {s t : State} (h : SameBut a s t) (hab : a ⊆ b) : SameBut b s t :=
  fun p hp => h p fun ha => hp (hab ha)

end Sys2Proof
end

section
/-! The transfers of the access window: the moves of the cursor (R27), the positions of a cell transfer (R29), and the queue's answer
to an entry (R44, R45, R46). -/

namespace Sys2Proof.Machine

/-! ### The cursor -/

/-- The places of a transfer are those of its moves (R29). -/
theorem Window.places_eq_map (w : Window) (p : Place) (n : Nat) : w.places p n = (List.range n).map (w.after p) := by
  induction n generalizing p with
  | zero => rfl
  | succ n ih => rw [Window.places, ih, List.range_succ_eq_map, List.map_cons, List.map_map]; rfl

/-- A flag raised under a condition changes the event unit only. -/
theorem sameBut_raiseIf (s : State) (c : Bool) (e : Event) : SameBut [.events] s (s.raiseIf c e) := by
  intro p hp
  cases p <;> simp_all [Part.same]

/-- Writes to pattern memory leave every other part. -/
theorem sameBut_pm (s : State) (p : PatternMemory) : SameBut [.pm] s { s with pm := p } := by
  intro q hq
  cases q <;> simp_all [Part.same]

/-- A word read leaves every part but the bus (R32). -/
theorem sameBut_answerRead (s : State) (word : Word) : SameBut [.bus] s (s.answerRead word) := by
  intro p hp
  cases p <;> simp_all [Part.same]

/-- The moves of the cursor leave every part but the window and the event unit (R27). -/
theorem sameBut_moveCursor (s : State) (n : Nat) : SameBut [.window, .events] s (s.moveCursor n) := by
  intro p hp
  cases p <;> simp_all [Part.same]

/-- The cursor makes its moves from where it stands in any state with the same window (R27). -/
theorem moved_moveCursor {s s₁ : State} (h : s₁.window = s.window) (n : Nat) : Moved s (s₁.moveCursor n) n := by
  unfold Moved State.moveCursor place
  simp only [State.raiseIf_frame, h]

/-- WRAP is raised by the moves exactly if one of them is a wrap (R27). -/
theorem raises_moveCursor {s s₁ : State} (h : s₁.window = s.window) (n : Nat) :
    Raises s₁ (s₁.moveCursor n) (fun e => e = .wrap ∧ wraps s n) := by
  refine raises_congr (raises_start raises_raiseIf rfl) fun e => and_congr_right fun _ => ?_
  simp [h, wraps, place, Window.places_eq_map]

/-- The flags of an operation before the moves, and WRAP (R27). -/
theorem raises_then_moveCursor {s s₁ : State} {P : Event → Prop} (h : Raises s s₁ P) (hw : s₁.window = s.window) (n : Nat) :
    Raises s (s₁.moveCursor n) (fun e => P e ∨ (e = .wrap ∧ wraps s n)) :=
  raises_trans h (raises_moveCursor hw n)

/-! ### Positions -/

/-- The triple of position i, if its value is a valid code (R30, R34). -/
def tripleAt (s : State) (word : Word) (i : Nat) : Option Triple :=
  (codeAt word i).map fun c => ⟨(place s i).row, (place s i).lane, c⟩

/-- The positions of a cell transfer are its places with the codes of the word (R29). -/
theorem positions_eq_map (s : State) (word : Word) :
    s.window.positions word = (List.range s.window.eff.count).map fun i => (place s i, codeAt word i) := by
  unfold AccessWindow.positions
  rw [Window.places_eq_map]
  exact List.ext_getElem (by simp) fun i _ _ => by simp [place, codeAt, cellField]

theorem triples_eq_filterMap (s : State) (word : Word) :
    s.window.triples word = (List.range s.window.eff.count).filterMap (tripleAt s word) := by
  rw [AccessWindow.triples, positions_eq_map, List.filterMap_map]
  rfl

theorem hasInvalid_iff (s : State) (word : Word) :
    s.window.hasInvalid word = true ↔ invalidAmong word s.window.eff.count := by
  simp [AccessWindow.hasInvalid, positions_eq_map, invalidAmong]

theorem Window.count_cells {w : Window} (h : w.mode.plane = .cells) : w.count = w.mode.cells.toNat := by
  simp [Window.count, h]

theorem Window.count_attributes {w : Window} (h : w.mode.plane = .attributes) : w.count = 1 := by
  simp [Window.count, h]

/-- CODEERR is raised exactly if a position holds an invalid code (R30, R34). -/
theorem raises_codeErr {s s₁ : State} (h : s₁.events = s.events) (word : Word) :
    Raises s (s₁.raiseIf (s.window.hasInvalid word) .codeErr)
      (fun e => e = .codeErr ∧ invalidAmong word s.window.eff.count) :=
  raises_congr (raises_start raises_raiseIf h.symm) fun _ => and_congr_right fun _ => (hasInvalid_iff s word).symm

/-! ### The queue's answer -/

/-- An entry is taken and joins the open batch, or is refused, as the table of R46 says. -/
theorem offerAnswer_eq (q : UpdateQueue) (e : Entry) :
    offerAnswer q e = if q.takes then (true, q.append e) else (false, q.refuse) := by
  obtain ⟨closed, openBatch, next⟩ := q
  unfold offerAnswer UpdateQueue.takes UpdateQueue.damaged UpdateQueue.append UpdateQueue.refuse UpdateQueue.openWith
  match openBatch with
  | none => simp
  | some ⟨_, _, false⟩ => simp
  | some ⟨_, _, true⟩ => simp

/-- An offer leaves every part but the window, the queue and the event unit (R44, R45). -/
theorem sameBut_offer (s : State) (e : Entry) (n : Nat) : SameBut [.window, .queue, .events] s (s.offer e n) := by
  intro p hp
  cases p <;> simp_all [Part.same]

/-- An offer after flags with cause P, by the queue's answer: a taken entry moves the cursor, a refused one raises QFULL
(R44, R45, R46). -/
structure Offered (s t : State) (e : Entry) (n : Nat) (P : Event → Prop) : Prop where
  queue : t.queue = (offerAnswer s.queue e).2
  taken : (offerAnswer s.queue e).1 = true → Moved s t n ∧ Raises s t (fun e' => P e' ∨ (e' = .wrap ∧ wraps s n))
  refused : (offerAnswer s.queue e).1 = false → t.window = s.window ∧ Raises s t (fun e' => P e' ∨ e' = .qFull)

theorem State.offer_offered {s s₁ : State} {P : Event → Prop} (hq : s₁.queue = s.queue) (hw : s₁.window = s.window)
    (h : Raises s s₁ P) (e : Entry) (n : Nat) : Offered s (s₁.offer e n) e n P := by
  cases ht : s.queue.takes with
  | true =>
    have hanswer : offerAnswer s.queue e = (true, s.queue.append e) := by simp [offerAnswer_eq, ht]
    have hoffer : s₁.offer e n = { s₁ with queue := s.queue.append e }.moveCursor n := by simp [State.offer, hq, ht]
    have hw₂ : { s₁ with queue := s.queue.append e }.window = s.window := hw
    have hflags : Raises s { s₁ with queue := s.queue.append e } P := raises_end h rfl
    rw [hoffer]
    exact ⟨by simp [hanswer], fun _ => ⟨moved_moveCursor hw₂ n, raises_then_moveCursor hflags hw₂ n⟩, by simp [hanswer]⟩
  | false =>
    have hanswer : offerAnswer s.queue e = (false, s.queue.refuse) := by simp [offerAnswer_eq, ht]
    have hoffer : s₁.offer e n = { s₁ with queue := s.queue.refuse }.raise .qFull := by simp [State.offer, hq, ht]
    rw [hoffer]
    exact ⟨by simp [hanswer], by simp [hanswer],
      fun _ => ⟨by simp [hw], raises_trans h (raises_raise rfl fun _ => Iff.rfl)⟩⟩

/-! ### Accepted transfers -/

/-- A ready part passes a DATA write to the window (R29). -/
theorem exec_dataWrite {s : State} (h : Ready s) (word : Word) : exec (.dataWrite word) s = .next (s.writeData word) := by
  show Host.Outcome.next (s.busCycle fun s => s.writeData word) = _
  simp [State.busCycle, h.1]

/-- A ready part passes a DATA read to the window (R32). -/
theorem exec_dataRead {s : State} (h : Ready s) : exec .dataRead s = .next s.readData := by
  show Host.Outcome.next (s.busCycle State.readData) = _
  simp [State.busCycle, h.1]

/-- With no sweep, fill or commit application a direct write is not refused (R28). -/
theorem writeRefused_direct {s : State} (h : Ready s) (hf : s.pm.fill = none) (hc : s.pm.commits = []) :
    s.writeRefused = false := by
  simp [State.writeRefused, h.2, hf, hc]

/-- With no sweep or fill a staged write is not refused (R28). -/
theorem writeRefused_staged {s : State} (h : Ready s) (hf : s.pm.fill = none) (ht : s.window.eff.mode.target = .staged) :
    s.writeRefused = false := by
  simp [State.writeRefused, h.2, hf, ht]

theorem writeData_direct_cells {s : State} (hr : s.writeRefused = false) (ht : s.window.eff.mode.target = .direct)
    (hp : s.window.eff.mode.plane = .cells) (word : Word) : s.writeData word = s.writeCellsDirect word := by
  simp [State.writeData, hr, ht, hp]

theorem writeData_direct_attributes {s : State} (hr : s.writeRefused = false) (ht : s.window.eff.mode.target = .direct)
    (hp : s.window.eff.mode.plane = .attributes) (word : Word) : s.writeData word = s.writeAttributesDirect word := by
  simp [State.writeData, hr, ht, hp]

theorem writeData_staged_cells {s : State} (hr : s.writeRefused = false) (ht : s.window.eff.mode.target = .staged)
    (hp : s.window.eff.mode.plane = .cells) (word : Word) : s.writeData word = s.writeCellsStaged word := by
  simp [State.writeData, hr, ht, hp]

theorem writeData_staged_attributes {s : State} (hr : s.writeRefused = false) (ht : s.window.eff.mode.target = .staged)
    (hp : s.window.eff.mode.plane = .attributes) (word : Word) : s.writeData word = s.writeAttributesStaged word := by
  simp [State.writeData, hr, ht, hp]

theorem readData_accepted {s : State} (h : Ready s) (hf : s.pm.fill = none) (hc : s.pm.commits = []) :
    s.readData = (s.answerRead s.dataWord).moveCursor s.window.eff.count := by
  simp [State.readData, State.readRefused, h.2, hf, hc]

end Sys2Proof.Machine
end

section
/-! DATA writes in the DIRECT target (R30, R31). -/

namespace Sys2Proof.Machine

theorem tripleAt_eq_some_iff {s : State} {word : Word} {i : Nat} {t : Triple} :
    tripleAt s word i = some t ↔ codeAt word i = some t.code ∧ place s i = ⟨t.row, t.lane⟩ := by
  obtain ⟨row, lane, code⟩ := t
  cases hp : place s i
  cases hc : codeAt word i with
  | none => simp [tripleAt, hc]
  | some c => simp [tripleAt, hc, hp]; tauto

/-- A cell that no valid position names keeps its code (R30). -/
theorem cell_writeCells_triples_other {s : State} {word : Word} {k : Nat} {m : Memory} {r : RowNum} {n : Lane}
    (h : ∀ i, i < k → place s i = ⟨r, n⟩ → codeAt word i = none) :
    (m.writeCells ((List.range k).filterMap (tripleAt s word))).cell r n = m.cell r n := by
  apply Memory.cell_writeCells_other
  rintro t ht ⟨rfl, rfl⟩
  obtain ⟨i, hi, hti⟩ := List.mem_filterMap.1 ht
  obtain ⟨hcode, hplace⟩ := tripleAt_eq_some_iff.1 hti
  rw [h i (List.mem_range.1 hi) hplace] at hcode
  cases hcode

/-- The cell of a valid position that no later valid one names takes its code (R30). -/
theorem cell_writeCells_triples_last {s : State} {word : Word} {k i : Nat} {c : CellCode} (m : Memory) (hi : i < k)
    (hc : codeAt word i = some c)
    (hlast : ∀ j, i < j → j < k → place s j = place s i → codeAt word j = none) :
    (m.writeCells ((List.range k).filterMap (tripleAt s word))).cell (place s i).row (place s i).lane = c := by
  have hsplit : List.range k = List.range i ++ i :: List.range' (i + 1) (k - (i + 1)) := by
    have happend := List.range'_append_1 (s := 0) (m := i) (n := k - (i + 1) + 1)
    rw [List.range_eq_range', List.range_eq_range', ← List.range'_succ]
    rw [Nat.zero_add] at happend
    rw [happend]
    congr 1
    omega
  have hti : tripleAt s word i = some ⟨(place s i).row, (place s i).lane, c⟩ := by simp [tripleAt, hc]
  rw [hsplit, List.filterMap_append, List.filterMap_cons_some hti]
  apply Memory.cell_writeCells_last _ _ _ ⟨(place s i).row, (place s i).lane, c⟩
  rintro u hu ⟨hrow, hlane⟩
  obtain ⟨j, hj, htj⟩ := List.mem_filterMap.1 hu
  obtain ⟨hcode, hplace⟩ := tripleAt_eq_some_iff.1 htj
  obtain ⟨hij, hjk⟩ := List.mem_range'_1.1 hj
  rw [hlast j (by omega) (by omega) (by rw [hplace, ← hrow, ← hlane])] at hcode
  cases hcode

/-- Settles O23: the codes by the last valid position of each cell, the flags and the moves by their rules. -/
theorem directCellWriteStoresItsPositions : Obligations.DirectCellWriteStoresItsPositions := by
  unfold Obligations.DirectCellWriteStoresItsPositions
  intro s word h hf hc ht hp k
  have hcount : s.window.eff.count = k := Window.count_cells hp
  have hexec : exec (.dataWrite word) s = .next (s.writeCellsDirect word) := by
    rw [exec_dataWrite h, writeData_direct_cells (writeRefused_direct h hf hc) ht hp]
  have hpm : (s.writeCellsDirect word).pm =
      { s.pm with rows := s.pm.rows.writeCells ((List.range k).filterMap (tripleAt s word)) } := by
    simp [State.writeCellsDirect, triples_eq_filterMap, hcount]
  refine ⟨_, hexec, ?_⟩
  beta_reduce
  rw [hpm, ← hcount]
  refine ⟨fun i c hi hcode hlast => cell_writeCells_triples_last _ hi hcode hlast,
    fun r n hnone => cell_writeCells_triples_other hnone, fun r => Memory.attributes_writeCells _ _ _, rfl, rfl, rfl,
    moved_moveCursor (by simp) _, raises_then_moveCursor (raises_codeErr rfl word) (by simp) _, ?_⟩
  exact (((sameBut_pm s _).trans (sameBut_raiseIf _ _ _)).trans (sameBut_moveCursor _ _)).mono (by simp)

/-- Settles O24: the record of the cursor row by the one write of attributes, the flag and the move by their rules. -/
theorem directAttributeWriteStoresTheRecord : Obligations.DirectAttributeWriteStoresTheRecord := by
  unfold Obligations.DirectAttributeWriteStoresTheRecord
  intro s word h hf hc ht hp
  have hexec : exec (.dataWrite word) s = .next (s.writeAttributesDirect word) := by
    rw [exec_dataWrite h, writeData_direct_attributes (writeRefused_direct h hf hc) ht hp]
  have hpm : (s.writeAttributesDirect word).pm =
      { s.pm with rows := s.pm.rows.writeAttributes s.window.cursor.row (.ofWord word) } := by
    simp [State.writeAttributesDirect]
  refine ⟨_, hexec, ?_⟩
  beta_reduce
  rw [hpm]
  refine ⟨fun r => Memory.attributes_writeAttributes _ _ _ _, fun r n => Memory.cell_writeAttributes _ _ _ _ _, rfl, rfl, rfl,
    moved_moveCursor rfl 1, raises_start (raises_moveCursor rfl 1) rfl, ?_⟩
  exact ((sameBut_pm s _).trans (sameBut_moveCursor _ _)).mono (by simp)

end Sys2Proof.Machine
end

section
/-! DATA writes in the STAGED target (R34, R35, R36). -/

namespace Sys2Proof.Machine

/-- A staged cell write without a valid code offers nothing (R35). -/
theorem writeCellsStaged_nil {s : State} {word : Word} (h : s.window.triples word = []) : s.writeCellsStaged word =
    (s.raiseIf (s.window.hasInvalid word) .codeErr).moveCursor s.window.eff.count := by
  simp [State.writeCellsStaged, h]

/-- A staged cell write with a valid code offers its triples as one entry (R34). -/
theorem writeCellsStaged_of_ne_nil {s : State} {word : Word} (h : s.window.triples word ≠ []) : s.writeCellsStaged word =
    (s.raiseIf (s.window.hasInvalid word) .codeErr).offer (.cells (s.window.triples word)) s.window.eff.count := by
  obtain ⟨t, ts, hts⟩ := List.exists_cons_of_ne_nil h
  simp [State.writeCellsStaged, hts]

/-- Settles O26: with no valid code the moves alone, else the offer's answer after CODEERR. -/
theorem stagedCellWriteOffersOneEntry : Obligations.StagedCellWriteOffersOneEntry := by
  unfold Obligations.StagedCellWriteOffersOneEntry
  intro s word h hf ht hp k triples answer
  have hexec : exec (.dataWrite word) s = .next (s.writeCellsStaged word) := by
    rw [exec_dataWrite h, writeData_staged_cells (writeRefused_staged h hf ht) ht hp]
  have hcount : s.window.eff.count = k := Window.count_cells hp
  have htriples : s.window.triples word = triples := by rw [triples_eq_filterMap, hcount]; rfl
  have hanswer : answer = offerAnswer s.queue (.cells (s.window.triples word)) := by rw [htriples]
  have hcode := raises_codeErr (s := s) rfl word
  refine ⟨_, hexec, ?_⟩
  beta_reduce
  rw [← hcount, ← htriples, hanswer]
  by_cases hnone : s.window.triples word = []
  · rw [writeCellsStaged_nil hnone]
    refine ⟨?_, fun _ => ⟨by simp, moved_moveCursor (by simp) _, raises_then_moveCursor hcode (by simp) _⟩,
      fun hsome => absurd hnone hsome⟩
    exact ((sameBut_raiseIf s _ _).trans (sameBut_moveCursor _ _)).mono (by simp)
  · rw [writeCellsStaged_of_ne_nil hnone]
    have hoffer := State.offer_offered (by simp) (by simp) hcode (.cells (s.window.triples word)) s.window.eff.count
    refine ⟨?_, fun hsome => absurd hsome hnone, fun _ => ⟨hoffer.queue, hoffer.taken, hoffer.refused⟩⟩
    exact ((sameBut_raiseIf s _ _).trans (sameBut_offer _ _ _)).mono (by simp)

/-- Settles O27: an entry of attributes for the cursor row, with the queue's answer. -/
theorem stagedAttributeWriteOffersOneEntry : Obligations.StagedAttributeWriteOffersOneEntry := by
  unfold Obligations.StagedAttributeWriteOffersOneEntry
  intro s word h hf ht hp answer
  have hexec : exec (.dataWrite word) s = .next (s.writeAttributesStaged word) := by
    rw [exec_dataWrite h, writeData_staged_attributes (writeRefused_staged h hf ht) ht hp]
  have hoffer := State.offer_offered rfl rfl (raises_refl s) (.attributes s.window.cursor.row (.ofWord word)) 1
  refine ⟨_, hexec, sameBut_offer s _ 1, hoffer.queue, fun htaken => ?_, fun hrefused => ?_⟩
  · obtain ⟨hmoved, hflags⟩ := hoffer.taken htaken
    exact ⟨hmoved, raises_congr hflags fun _ => by simp⟩
  · obtain ⟨hkept, hflags⟩ := hoffer.refused hrefused
    exact ⟨hkept, raises_congr hflags fun _ => by simp⟩

end Sys2Proof.Machine
end

section
/-! DATA reads (R32, R33): the word of some codes, and the word of a record. -/

namespace Sys2Proof.Machine

/-! ### The words a read returns -/

/-- One more code in front is one more digit to the base 8 (R173). -/
theorem cellsWord_cons_toNat (c : CellCode) {cs : List CellCode} (h : (cellsWord cs).toNat < 8 ^ 4) :
    (cellsWord (c :: cs)).toNat = 8 * (cellsWord cs).toNat + c.toBits.toNat := by
  have hc : c.toBits.toNat < 2 ^ 3 := c.toBits.isLt
  have hlow : (c.toBits.zeroExtend 16).toNat = c.toBits.toNat := BitVec.toNat_setWidth_of_le (by decide)
  have hhigh : (cellsWord cs <<< 3).toNat = (cellsWord cs).toNat <<< 3 := by
    rw [BitVec.toNat_shiftLeft, Nat.shiftLeft_eq]
    omega
  rw [cellsWord, BitVec.toNat_or, hlow, hhigh, ← Nat.shiftLeft_add_eq_or_of_lt hc, Nat.shiftLeft_eq]
  omega

/-- The bits above up to five codes read 0 (R32). -/
theorem cellsWord_lt_pow (cs : List CellCode) (h : cs.length ≤ 5) : (cellsWord cs).toNat < 8 ^ cs.length := by
  induction cs with
  | nil => decide
  | cons c cs ih =>
    have hlt := ih (Nat.le_of_succ_le h)
    have hc : c.toBits.toNat < 8 := c.toBits.isLt
    have hpow : 8 ^ cs.length ≤ 8 ^ 4 := Nat.pow_le_pow_right (by decide) (Nat.le_of_succ_le_succ h)
    rw [cellsWord_cons_toNat c (hlt.trans_le hpow), List.length_cons, Nat.pow_succ]
    omega

/-- Code i of up to five stands in the three bits of cell i (R32). -/
theorem cellsWord_extract (cs : List CellCode) (h : cs.length ≤ 5) (i : Nat) (hi : i < cs.length) :
    (cellsWord cs).extractLsb' (3 * i) 3 = cs[i].toBits := by
  apply BitVec.eq_of_toNat_eq
  rw [BitVec.extractLsb'_toNat, Nat.shiftRight_eq_div_pow]
  induction cs generalizing i with
  | nil => exact absurd hi (Nat.not_lt_zero i)
  | cons c cs ih =>
    have hc : c.toBits.toNat < 8 := c.toBits.isLt
    have hlt := cellsWord_lt_pow cs (Nat.le_of_succ_le h)
    have hpow : 8 ^ cs.length ≤ 8 ^ 4 := Nat.pow_le_pow_right (by decide) (Nat.le_of_succ_le_succ h)
    rw [cellsWord_cons_toNat c (hlt.trans_le hpow)]
    cases i with
    | zero => simp; omega
    | succ i =>
      have hpow : 2 ^ (3 * (i + 1)) = 8 * 2 ^ (3 * i) := by rw [Nat.mul_add, Nat.pow_add, Nat.mul_comm]
      have hdiv : (8 * (cellsWord cs).toNat + c.toBits.toNat) / 8 = (cellsWord cs).toNat := by omega
      rw [hpow, ← Nat.div_div_eq_div_mul, hdiv]
      exact ih (Nat.le_of_succ_le h) i (Nat.lt_of_succ_lt_succ hi)

/-- The word of a record holds its fields in bits 7:0, 8 and 9; the bits above read 0 (R173). -/
theorem Attributes.toWord_getLsbD (a : Attributes) (i : Nat) : a.toWord.getLsbD i =
    if i < 8 then a.dwellLess1.getLsbD i else if i = 8 then a.wait else if i = 9 then a.mark else false := by
  refine (BitVec.getLsbD_append (x := 0#6 ++ BitVec.ofBool a.mark ++ BitVec.ofBool a.wait)).trans ?_
  simp only [BitVec.getLsbD_append]
  split
  · rfl
  · obtain ⟨j, rfl⟩ : ∃ j, i = j + 8 := ⟨i - 8, by omega⟩
    match j with
    | 0 | 1 => simp
    | j + 2 => simp

/-- A record read back from its word (R33). -/
theorem Attributes.ofWord_toWord (a : Attributes) : Attributes.ofWord a.toWord = a := by
  have hdwell : a.toWord.extractLsb' 0 8 = a.dwellLess1 :=
    BitVec.eq_of_getLsbD_eq fun i hi => by simp [Attributes.toWord_getLsbD, hi]
  have hwait : a.toWord.getLsbD 8 = a.wait := by rw [Attributes.toWord_getLsbD]; rfl
  have hmark : a.toWord.getLsbD 9 = a.mark := by rw [Attributes.toWord_getLsbD]; rfl
  rw [Attributes.ofWord, hdwell, hwait, hmark]

/-- Bits 15:10 of the word of a record read 0 (R33). -/
theorem Attributes.toWord_lt (a : Attributes) : a.toWord.toNat < 1024 := by
  apply Nat.lt_pow_two_of_testBit (n := 10)
  intro i hi
  rw [BitVec.testBit_toNat, Attributes.toWord_getLsbD, if_neg (by omega), if_neg (by omega), if_neg (by omega)]

/-! ### The read -/

theorem dataWord_cells {s : State} (h : s.window.eff.mode.plane = .cells) : s.dataWord =
    cellsWord ((List.range s.window.eff.count).map fun i => s.pm.rows.cell (place s i).row (place s i).lane) := by
  simp [State.dataWord, h, Window.places_eq_map, place, Function.comp_def]

theorem dataWord_attributes {s : State} (h : s.window.eff.mode.plane = .attributes) :
    s.dataWord = (s.pm.rows.attributes s.window.cursor.row).toWord := by
  simp [State.dataWord, h]

/-- Settles O25: the word by its plane, the flag and the moves by their rules. -/
theorem dataReadReturnsMemory : Obligations.DataReadReturnsMemory := by
  unfold Obligations.DataReadReturnsMemory
  intro s h hf hc hfive k
  have hexec : exec .dataRead s = .next ((s.answerRead s.dataWord).moveCursor s.window.eff.count) := by
    rw [exec_dataRead h, readData_accepted h hf hc]
  have hcount : s.window.eff.count = k := by
    cases hp : s.window.eff.mode.plane with
    | cells => rw [Window.count_cells hp]; simp [k, hp]
    | attributes => rw [Window.count_attributes hp]; simp [k, hp]
  refine ⟨_, hexec, s.dataWord, by simp [State.answerRead], fun hp => ?_, fun hp => ?_, ?_⟩
  · have hlen : ((List.range k).map fun i => s.pm.rows.cell (place s i).row (place s i).lane).length = k := by simp
    have hk : k ≤ 5 := by simpa [k, hp] using hfive
    rw [dataWord_cells hp, hcount]
    refine ⟨fun i hi => ?_, ?_⟩
    · rw [cellsWord_extract _ (hlen.trans_le hk) i (hi.trans_eq hlen.symm)]
      simp
    · exact (cellsWord_lt_pow _ (hlen.trans_le hk)).trans_eq (congrArg _ hlen)
  · rw [dataWord_attributes hp]
    exact ⟨Attributes.ofWord_toWord _, Attributes.toWord_lt _⟩
  · rw [← hcount]
    refine ⟨moved_moveCursor (by simp) _, raises_start (raises_moveCursor (by simp) _) (by simp), ?_⟩
    exact ((sameBut_answerRead s _).trans (sameBut_moveCursor _ _)).mono (by simp)

end Sys2Proof.Machine
end

section
/-! The queue's own commands (R47 to R50): what CLOSE BATCH and DISCARD BATCH make of the open batch. FLUSH QUEUE looks at no batch
and needs no lemma. -/

namespace Sys2Proof.Machine

/-- CLOSE BATCH with no batch open (R47). -/
theorem State.closeBatch_empty {s : State} (h : s.queue.openBatch = none) : s.closeBatch = (s, .empty) := by
  simp [State.closeBatch, h]

/-- CLOSE BATCH makes an undamaged open batch the newest closed one (R47). -/
theorem State.closeBatch_undamaged {s : State} {b : OpenBatch} (h : s.queue.openBatch = some b) (hd : b.damaged = false) :
    s.closeBatch = ({ s with queue := { s.queue with
      closed := s.queue.closed ++ [⟨b.number, b.entries⟩], openBatch := none } }, .accepted) := by
  simp [State.closeBatch, h, hd]

/-- CLOSE BATCH drops a damaged open batch whole (R48). -/
theorem State.closeBatch_damaged {s : State} {b : OpenBatch} (h : s.queue.openBatch = some b) (hd : b.damaged = true) :
    s.closeBatch = ({ s with queue := { s.queue with openBatch := none } }.raise .batchDrop, .dropped) := by
  simp [State.closeBatch, h, hd]

/-- DISCARD BATCH with no batch open (R49). -/
theorem State.discardBatch_empty {s : State} (h : s.queue.openBatch = none) : s.discardBatch = (s, .empty) := by
  simp [State.discardBatch, h]

/-- DISCARD BATCH removes the open batch, damaged or not (R49). -/
theorem State.discardBatch_open {s : State} {b : OpenBatch} (h : s.queue.openBatch = some b) :
    s.discardBatch = ({ s with queue := { s.queue with openBatch := none } }, .accepted) := by
  simp [State.discardBatch, h]

/-- Settles O28: a ready part passes each command to the queue, which answers by the batch that is open. -/
theorem batchCommandsActOnTheirBatches : Obligations.BatchCommandsActOnTheirBatches := by
  unfold Obligations.BatchCommandsActOnTheirBatches
  intro s hready
  have hclose : exec .closeBatch s = .next (s.closeBatch.1.report s.closeBatch.2) :=
    congrArg Host.Outcome.next (s.command_ready _ hready)
  have hdiscard : exec .discardBatch s = .next (s.discardBatch.1.report s.discardBatch.2) :=
    congrArg Host.Outcome.next (s.command_ready _ hready)
  refine ⟨fun hnone => ⟨?_, ?_⟩, fun b hopen => ⟨fun hd => ?_, fun hd => ?_, ?_⟩, ?_⟩
  · rw [hclose, State.closeBatch_empty hnone]
  · rw [hdiscard, State.discardBatch_empty hnone]
  · rw [hclose, State.closeBatch_undamaged hopen hd]
  · rw [hclose, State.closeBatch_damaged hopen hd]
  · rw [hdiscard, State.discardBatch_open hopen]
  · exact congrArg Host.Outcome.next (s.command_ready State.flushQueue hready)

end Sys2Proof.Machine
end

section
/-! The registers that are written in IDLE alone: the timebase, the layout, STROBE and WAIT_LIMIT (R72, R76, R119, R120). -/

namespace Sys2Proof.Machine

/-! ### What their owners do with a value -/

section
variable {s : State}

theorem State.writeTimebase_idle (h : s.run.seq = .idle) (reg : TimebaseReg) (value : Word) :
    s.writeTimebase reg value = { s with timebase := s.timebase.write reg value } := if_pos h

theorem State.writeTimebase_locked (h : s.run.seq ≠ .idle) (reg : TimebaseReg) (value : Word) :
    s.writeTimebase reg value = s.raise .accErr := if_neg h

theorem State.writeLayout_idle (h : s.run.seq = .idle) (reg : LayoutReg) (value : Word) :
    s.writeLayout reg value = { s with run := s.run.write reg value } := if_pos h

theorem State.writeLayout_locked (h : s.run.seq ≠ .idle) (reg : LayoutReg) (value : Word) :
    s.writeLayout reg value = s.raise .accErr := if_neg h

theorem State.writeStrobe_idle (h : s.run.seq = .idle) {value : Word} (hlow : 1 ≤ value.toNat) (hhigh : value.toNat ≤ 256) :
    s.writeStrobe value = { s with play := { s.play with strobe := value } } := if_pos ⟨h, hlow, hhigh⟩

/-- A STROBE write of 0 or above 256 is ignored, whatever the sequencer does (R119). -/
theorem State.writeStrobe_outOfRange {value : Word} (h : value.toNat = 0 ∨ 256 < value.toNat) :
    s.writeStrobe value = s.raise .accErr := if_neg fun ⟨_, hlow, hhigh⟩ => by omega

theorem State.writeStrobe_locked (h : s.run.seq ≠ .idle) (value : Word) :
    s.writeStrobe value = s.raise .accErr := if_neg fun hidle => h hidle.1

theorem State.writeWaitLimit_idle (h : s.run.seq = .idle) (value : Word) :
    s.writeWaitLimit value = { s with play := { s.play with waitLimit := value } } := if_pos h

theorem State.writeWaitLimit_locked (h : s.run.seq ≠ .idle) (value : Word) :
    s.writeWaitLimit value = s.raise .accErr := if_neg h

/-- A write that its owner ignores outside IDLE is ignored during the sweep as well, in every sequencer state (R10). -/
theorem State.regWrite_locked {f : State → State} (hreset : s.pins.resetLow = false)
    (hlocked : s.pm.sweep.isSome = true ∨ s.run.seq ≠ .idle) (hf : s.run.seq ≠ .idle → f s = s.raise .accErr) :
    s.regWrite f = s.raise .accErr := by
  cases hsweep : s.pm.sweep with
  | some row => exact s.regWrite_sweep f hreset (by rw [hsweep]; rfl)
  | none =>
    have hseq : s.run.seq ≠ .idle := hlocked.resolve_left (by simp [hsweep])
    rw [s.regWrite_ready f ⟨hreset, hsweep⟩, hf hseq]
end

/-- GATE_CONFIG shows the gate enable in bit 0 and the hold level in bit 1 (R71). -/
theorem gateConfigWord_toNat (holdHigh gateEnabled : Bool) :
    ((BitVec.ofBool holdHigh ++ BitVec.ofBool gateEnabled).zeroExtend 16 : Word).toNat =
      (if gateEnabled then 1 else 0) + (if holdHigh then 2 else 0) := by
  revert holdHigh gateEnabled
  decide

/-- Settles O34: a ready part passes the write to its owner, which takes it in IDLE; the sweep and every other sequencer state
refuse it alike. -/
theorem idleRegistersAreLockedInARun : Obligations.IdleRegistersAreLockedInARun := by
  unfold Obligations.IdleRegistersAreLockedInARun
  intro s value
  refine ⟨fun hready hidle => ?taken, fun hreset hlocked => ?ignored, ?prescaleRead, rfl, ?gateRead,
    rfl, rfl, rfl, rfl, rfl, rfl⟩
  case taken =>
    have htimebase (reg : TimebaseReg) :
        exec (.timebaseWrite reg value) s = .next { s with timebase := s.timebase.write reg value } :=
      congrArg Host.Outcome.next ((s.regWrite_ready _ hready).trans (State.writeTimebase_idle hidle reg value))
    have hlayout (reg : LayoutReg) : exec (.layoutWrite reg value) s = .next { s with run := s.run.write reg value } :=
      congrArg Host.Outcome.next ((s.regWrite_ready _ hready).trans (State.writeLayout_idle hidle reg value))
    have hstrobe : exec (.strobeWrite value) s = .next (s.writeStrobe value) :=
      congrArg Host.Outcome.next (s.regWrite_ready _ hready)
    have hwait : exec (.waitLimitWrite value) s = .next { s with play := { s.play with waitLimit := value } } :=
      congrArg Host.Outcome.next ((s.regWrite_ready _ hready).trans (State.writeWaitLimit_idle hidle value))
    refine ⟨htimebase .prescale, htimebase .period, htimebase .gateConfig, hlayout .base, hlayout .headLen,
      hlayout .loopLen, hlayout .tailLen, fun hlow hhigh => ?_, fun hout => ?_, hwait⟩
    · rw [hstrobe, State.writeStrobe_idle hidle hlow hhigh]
    · rw [hstrobe, State.writeStrobe_outOfRange hout]
  case ignored =>
    have hignored {f : State → State} (hf : s.run.seq ≠ .idle → f s = s.raise .accErr) :
        Host.Outcome.next (s.regWrite f) = (.next (s.raise .accErr) : Host.Outcome State Fault Refusal) :=
      congrArg Host.Outcome.next (State.regWrite_locked hreset hlocked hf)
    exact ⟨fun reg => hignored fun h => State.writeTimebase_locked h reg value,
      fun reg => hignored fun h => State.writeLayout_locked h reg value,
      hignored fun h => State.writeStrobe_locked h value, hignored fun h => State.writeWaitLimit_locked h value⟩
  case prescaleRead => exact BitVec.toNat_setWidth_of_le (by decide)
  case gateRead => exact gateConfigWord_toNat s.timebase.holdHigh s.timebase.gateEnabled

end Sys2Proof.Machine
end

section
/-! The registers whose writes look at the run: ENTRY_OFFSET beside the loop length and PASS_TARGET beside the pass count
(R98, R99). -/

namespace Sys2Proof.Machine

/-! ### What their owner does with a value -/

section
variable {s : State}

/-- In IDLE the write sets E itself (R98). -/
theorem State.writeEntryOffset_idle (h : s.run.seq = .idle) (value : Word) :
    s.writeEntryOffset value = { s with run := { s.run with entryOffset := value } } := by
  simp [State.writeEntryOffset, h]

/-- In ARMED and HALTED the write is ignored, whatever the value (R98). -/
theorem State.writeEntryOffset_locked (h : s.run.seq = .armed ∨ s.run.seq = .halted) (value : Word) :
    s.writeEntryOffset value = s.raise .accErr := by
  rcases h with h | h <;> simp [State.writeEntryOffset, h]

/-- In a run the write is measured against the loop length and never reaches E (R98). -/
theorem State.writeEntryOffset_running (h : s.run.seq.running = true) (value : Word) :
    s.writeEntryOffset value =
      if value.toNat < s.run.loopLen.toNat then { s with run := { s.run with pendingOffset := some value } }
      else s.raise .accErr := by
  unfold State.writeEntryOffset
  cases hseq : s.run.seq with
  | head | loop | tail => rfl
  | idle | armed | halted => simp [hseq, SeqState.running] at h

/-- Outside a run the write reaches the register alone (R99). -/
theorem State.writePassTarget_stopped (h : s.run.seq.running = false) (value : Word) :
    s.writePassTarget value = { s with run := { s.run with passTarget := value } } := by
  unfold State.writePassTarget
  cases hseq : s.run.seq with
  | idle | armed | halted => rfl
  | head | loop | tail => simp [hseq, SeqState.running] at h

/-- In a run a target that is taken is in force at once (R99). -/
theorem State.writePassTarget_running (h : s.run.seq.running = true) (value : Word) :
    s.writePassTarget value =
      if value = 0 ∨ s.run.passCount.toNat < value.toNat then
        { s with run := { s.run with passTarget := value, targetInForce := value } }
      else s.raise .accErr := by
  unfold State.writePassTarget
  cases hseq : s.run.seq with
  | head | loop | tail => rfl
  | idle | armed | halted => simp [hseq, SeqState.running] at h
end

/-- Settles O40: a ready part passes each write to its owner, which decides by the sequencer state and the value; the sweep refuses
both as it refuses every register write. -/
theorem offsetAndTargetWritesByState : Obligations.OffsetAndTargetWritesByState := by
  unfold Obligations.OffsetAndTargetWritesByState
  intro s value
  have hoffset (hready : Ready s) : exec (.entryOffsetWrite value) s = .next (s.writeEntryOffset value) :=
    congrArg Host.Outcome.next (s.regWrite_ready _ hready)
  have htarget (hready : Ready s) : exec (.passTargetWrite value) s = .next (s.writePassTarget value) :=
    congrArg Host.Outcome.next (s.regWrite_ready _ hready)
  refine ⟨fun hready hidle => ?offsetIdle, fun hready hrun hbelow => ?offsetPending, fun hready hrun habove => ?offsetTooLarge,
    fun hready hlocked => ?offsetLocked, fun hready hstopped => ?targetStopped, fun hready hrun hfits => ?targetInForce,
    fun hready hrun hzero hreached => ?targetReached, fun hreset hsweep => ?sweep, rfl, rfl⟩
  case offsetIdle => rw [hoffset hready, State.writeEntryOffset_idle hidle]
  case offsetPending => rw [hoffset hready, State.writeEntryOffset_running hrun, if_pos hbelow]
  case offsetTooLarge => rw [hoffset hready, State.writeEntryOffset_running hrun, if_neg (Nat.not_lt.mpr habove)]
  case offsetLocked => rw [hoffset hready, State.writeEntryOffset_locked hlocked]
  case targetStopped => rw [htarget hready, State.writePassTarget_stopped hstopped]
  case targetInForce =>
    have htaken : value = 0 ∨ s.run.passCount.toNat < value.toNat := hfits.imp_left BitVec.eq_of_toNat_eq
    rw [htarget hready, State.writePassTarget_running hrun, if_pos htaken]
  case targetReached =>
    have hignored : ¬(value = 0 ∨ s.run.passCount.toNat < value.toNat) :=
      not_or.mpr ⟨fun h => hzero (congrArg BitVec.toNat h), Nat.not_lt.mpr hreached⟩
    rw [htarget hready, State.writePassTarget_running hrun, if_neg hignored]
  case sweep =>
    have hsweeping : Sweeping s := ⟨hreset, hsweep⟩
    exact ⟨hsweeping.exec_registerWrite rfl, hsweeping.exec_registerWrite rfl⟩

end Sys2Proof.Machine
end

section
/-! The commands and registers of the compare unit: LOG POP on the log it finds (R150) and FAIL_POLICY by its bits 1:0 (R146).
LOG CLEAR and COMPARE_MASK look at nothing and need no lemma. -/

namespace Sys2Proof.Machine

/-- LOG POP with no record in the log (R150). -/
theorem State.popLog_empty {s : State} (h : s.compare.log = []) : s.popLog = (s, .empty) := by
  simp [State.popLog, h]

/-- LOG POP removes the oldest record and keeps the later ones in their order (R150). -/
theorem State.popLog_cons {s : State} {r : FailRecord} {rest : List FailRecord} (h : s.compare.log = r :: rest) :
    s.popLog = ({ s with compare := { s.compare with log := rest } }, .accepted) := by
  simp [State.popLog, h]

/-- The policy field of a FAIL_POLICY write is the value modulo 4 (R146). -/
theorem failPolicyField_toNat (value : Word) : (value.extractLsb' 0 2).toNat = value.toNat % 4 := by
  simp [BitVec.extractLsb'_toNat]

/-- A word whose bits 1:0 are those a policy reads back as names that policy, whatever stands above them (R146). -/
theorem FailPolicy.ofWord_eq_some {value : Word} {p : FailPolicy} (h : value.toNat % 4 = p.toWord.toNat) :
    FailPolicy.ofWord value = some p := by
  unfold FailPolicy.ofWord
  rw [failPolicyField_toNat, h]
  cases p <;> rfl

/-- The value 3 names no policy (R146). -/
theorem FailPolicy.ofWord_eq_none {value : Word} (h : value.toNat % 4 = 3) : FailPolicy.ofWord value = none := by
  unfold FailPolicy.ofWord
  rw [failPolicyField_toNat, h]
  rfl

/-- A FAIL_POLICY write that names a policy stores it (R146). -/
theorem State.writePolicy_valid (s : State) {value : Word} {p : FailPolicy} (h : value.toNat % 4 = p.toWord.toNat) :
    s.writePolicy value = { s with compare := { s.compare with policy := p } } := by
  simp [State.writePolicy, FailPolicy.ofWord_eq_some h]

/-- A FAIL_POLICY write of 3 is ignored with ACCERR (R146). -/
theorem State.writePolicy_invalid (s : State) {value : Word} (h : value.toNat % 4 = 3) :
    s.writePolicy value = s.raise .accErr := by
  simp [State.writePolicy, FailPolicy.ofWord_eq_none h]

/-- Settles O53: a ready part passes each request to the compare unit, which looks at its log or at the value alone; the sweep
refuses all four as it refuses every command and register write. -/
theorem logCommandsAndCompareRegisters : Obligations.LogCommandsAndCompareRegisters := by
  unfold Obligations.LogCommandsAndCompareRegisters
  intro s
  have hpop (hready : Ready s) : exec .logPop s = .next (s.popLog.1.report s.popLog.2) :=
    congrArg Host.Outcome.next (s.command_ready _ hready)
  refine ⟨fun hready hempty => ?popEmpty, fun r rest hready hlog => ?popOldest, fun hready => ?clear,
    fun value hready => ?registerWrites, fun hreset hsweep => ?sweep, rfl, ?policyRead⟩
  case popEmpty => rw [hpop hready, State.popLog_empty hempty]
  case popOldest => rw [hpop hready, State.popLog_cons hlog]
  case clear => exact congrArg Host.Outcome.next (s.command_ready _ hready)
  case registerWrites =>
    have hmask : exec (.compareMaskWrite value) s = .next (s.writeMask value) :=
      congrArg Host.Outcome.next (s.regWrite_ready _ hready)
    have hpolicy : exec (.failPolicyWrite value) s = .next (s.writePolicy value) :=
      congrArg Host.Outcome.next (s.regWrite_ready _ hready)
    have hstored (p : FailPolicy) (h : value.toNat % 4 = p.toWord.toNat) :
        exec (.failPolicyWrite value) s = .next { s with compare := { s.compare with policy := p } } := by
      rw [hpolicy, s.writePolicy_valid h]
    exact ⟨hmask, hstored .continue, hstored .stop, hstored .halt, fun h => by rw [hpolicy, s.writePolicy_invalid h]⟩
  case sweep =>
    have hsweeping : Sweeping s := ⟨hreset, hsweep⟩
    exact ⟨hsweeping.exec_command rfl, hsweeping.exec_command rfl,
      fun value => ⟨hsweeping.exec_registerWrite rfl, hsweeping.exec_registerWrite rfl⟩⟩
  case policyRead =>
    show s.compare.policy.toWord.toNat = _
    cases s.compare.policy <;> rfl

end Sys2Proof.Machine
end

section
/-! The flags and the enables bit by bit: every bit of EVENTS and EVENT_ENABLE stands for one event (R156), so what a write clears and
whether IRQ_N is pulled are said by the events (R158, R162). -/

namespace Sys2Proof.Machine

/-! ### The bits of the event registers -/

theorem Event.bit_lt (e : Event) : e.bit < 16 := by
  cases e <;> decide

/-- All sixteen bits of EVENTS and EVENT_ENABLE are in use, in the order of the table in 9.4 (R156). -/
theorem Event.exists_bit_eq : ∀ i < 16, ∃ e : Event, e.bit = i
  | 0, _ => ⟨.done, rfl⟩
  | 1, _ => ⟨.halt, rfl⟩
  | 2, _ => ⟨.pass, rfl⟩
  | 3, _ => ⟨.mark, rfl⟩
  | 4, _ => ⟨.fail, rfl⟩
  | 5, _ => ⟨.logFull, rfl⟩
  | 6, _ => ⟨.logOvf, rfl⟩
  | 7, _ => ⟨.trigIgn, rfl⟩
  | 8, _ => ⟨.wrap, rfl⟩
  | 9, _ => ⟨.fillDone, rfl⟩
  | 10, _ => ⟨.qFull, rfl⟩
  | 11, _ => ⟨.batchDrop, rfl⟩
  | 12, _ => ⟨.commit, rfl⟩
  | 13, _ => ⟨.accErr, rfl⟩
  | 14, _ => ⟨.codeErr, rfl⟩
  | 15, _ => ⟨.initDone, rfl⟩
  | i + 16, hi => absurd hi (by omega)

/-- A word is other than 0 when the bit of some event is set in it. -/
theorem Event.word_ne_zero_iff (w : Word) : w ≠ 0 ↔ ∃ e : Event, w.getLsbD e.bit = true := by
  constructor
  · intro hne
    by_contra hclear
    refine hne (BitVec.eq_of_getLsbD_eq fun i hi => ?_)
    obtain ⟨e, rfl⟩ := Event.exists_bit_eq i hi
    simpa using fun hset => hclear ⟨e, hset⟩
  · rintro ⟨e, hset⟩ rfl
    simp at hset

/-! ### EVENTS and IRQ_N -/

/-- A write to EVENTS leaves set the flags that were set and are not written with 1 (R158). -/
theorem EventUnit.isSet_clear (u : EventUnit) (ones : Word) (e : Event) :
    (u.clear ones).isSet e = (u.isSet e && !ones.getLsbD e.bit) := by
  simp [EventUnit.clear, EventUnit.isSet, e.bit_lt]

/-- With RESET_N high a write to EVENTS clears its flags, whatever the part does besides (R158). -/
theorem exec_eventsWrite {s : State} (h : s.pins.resetLow = false) (ones : Word) :
    exec (.eventsWrite ones) s = .next { s with events := s.events.clear ones } := by
  show Host.Outcome.next (s.writeEvents ones) = _
  simp [State.writeEvents, State.busCycle, h]

/-- A change of the event unit reaches no other part. -/
theorem sameBut_events (s : State) (u : EventUnit) : SameBut [.events] s { s with events := u } := by
  intro p hp
  cases p with
  | events => simp at hp
  | _ => rfl

/-- The pin follows the flags and the enables, event by event (R162). -/
theorem State.irqLow_iff (s : State) : s.irqLow = true ↔
    s.pins.resetLow = false ∧ ∃ e : Event, s.events.isSet e = true ∧ s.events.enables.getLsbD e.bit = true := by
  have hsome := Event.word_ne_zero_iff (s.events.flags &&& s.events.enables)
  simp only [BitVec.getLsbD_and, Bool.and_eq_true] at hsome
  simp only [State.irqLow, Bool.and_eq_true, Bool.not_eq_true', bne_iff_ne]
  exact and_congr_right fun _ => hsome

/-- Settles O54: a write to EVENTS is taken in the sweep too, one to EVENT_ENABLE is an owner's register write that the sweep refuses,
and the pin is read off the flags and enables event by event. -/
theorem eventWritesAndTheInterruptPin : Obligations.EventWritesAndTheInterruptPin := by
  unfold Obligations.EventWritesAndTheInterruptPin
  intro s value
  refine ⟨fun hreset => ?clear, fun hready => ?enable, fun hreset hsweep => ?sweep, s.irqLow_iff⟩
  case clear =>
    refine ⟨_, exec_eventsWrite hreset value, fun e => ?flags, rfl, sameBut_events s _⟩
    case flags => simp [EventUnit.isSet_clear]
  case enable => exact congrArg Host.Outcome.next (s.regWrite_ready _ hready)
  case sweep =>
    have hsweeping : Sweeping s := ⟨hreset, hsweep⟩
    exact hsweeping.exec_registerWrite rfl

end Sys2Proof.Machine
end

section
/-! The words that show status, field by field: STATUS (R171), OUTCOME (R169), QUEUE_STATUS and QUEUE_OPEN (R172), the log's oldest
record (R149, R175). -/

namespace Sys2Proof.Machine

/-! ### Words put together from fields -/

/-- Fields with n bits put below them move up by n. -/
theorem append_toNat {m n : Nat} (x : BitVec m) (y : BitVec n) : (x ++ y).toNat = 2 ^ n * x.toNat + y.toNat := by
  rw [BitVec.toNat_append, ← Nat.shiftLeft_add_eq_or_of_lt y.isLt, Nat.shiftLeft_eq, Nat.mul_comm]

/-- A one-bit field is 1 when its flag is set. -/
theorem ofBool_toNat (b : Bool) : (BitVec.ofBool b).toNat = if b then 1 else 0 := by
  cases b <;> rfl

/-- A number below 2 to the 16th is read as it is. -/
theorem word_toNat {n : Nat} (h : n < 65536) : (BitVec.ofNat 16 n).toNat = n := by
  rw [BitVec.toNat_ofNat, Nat.mod_eq_of_lt h]

/-! ### STATUS and OUTCOME -/

/-- STATUS by its fields; bits 15:8 read 0 (R171). -/
theorem State.statusWord_toNat (s : State) : s.statusWord.toNat =
    s.run.seq.toBits.toNat + (if s.play.phase = .waiting then 8 else 0) + (if s.run.stopMark then 16 else 0) +
      (if s.run.pendingOffset.isSome then 32 else 0) + (if s.pm.sweep.isSome then 64 else 0) +
      (if s.pm.fill.isSome then 128 else 0) := by
  simp only [State.statusWord, append_toNat, ofBool_toNat, BitVec.toNat_ofNat, beq_iff_eq,
    mul_add, mul_ite, mul_zero, mul_one, Nat.reducePow, Nat.reduceMul]
  omega

/-- OUTCOME by its fields; bit 3 and bits 15:8 read 0 (R169). -/
theorem HostBus.outcomeWord_toNat (b : HostBus) : b.outcomeWord.toNat = b.serial.toNat * 16 + b.outcome.toBits.toNat := by
  simp only [HostBus.outcomeWord, append_toNat, BitVec.toNat_ofNat]
  omega

/-! ### QUEUE_STATUS and QUEUE_OPEN -/

/-- A sound queue holds an entry for each closed batch (R42). -/
theorem UpdateQueue.closed_length_le_held {q : UpdateQueue} (h : QueueSound q) : q.closed.length ≤ q.held := by
  have hone : ∀ n ∈ q.closed.map fun b => b.entries.length, 1 ≤ n := by
    intro n hn
    obtain ⟨b, hb, rfl⟩ := List.mem_map.mp hn
    exact List.length_pos_of_ne_nil (h.closedNonempty b hb)
  calc q.closed.length = (q.closed.map fun b => b.entries.length).length := (List.length_map _).symm
    _ ≤ q.closedEntries := List.length_le_sum_of_one_le _ hone
    _ ≤ q.held := Nat.le_add_right _ _

/-- Within the bounds of R40 no count of QUEUE_STATUS outgrows its seven bits. -/
theorem UpdateQueue.statusWord_toNat {q : UpdateQueue} (h : QueueSound q) : q.statusWord.toNat =
    q.held + q.closed.length * 128 + (if q.openBatch.isSome then 16384 else 0) + (if q.damaged then 32768 else 0) := by
  have hheld := h.held
  have hclosed := q.closed_length_le_held h
  simp only [UpdateQueue.statusWord, append_toNat, ofBool_toNat, BitVec.toNat_ofNat,
    mul_add, mul_ite, mul_zero, mul_one, Nat.reducePow, Nat.reduceMul]
  omega

/-- With a batch open QUEUE_OPEN shows its number and its entries. -/
theorem UpdateQueue.openWord_open {q : UpdateQueue} (h : QueueSound q) {b : OpenBatch} (hb : q.openBatch = some b) :
    q.openWord.toNat = b.number.toNat + b.entries.length * 256 := by
  have hopen : q.openEntries = b.entries.length := by simp [UpdateQueue.openEntries, hb]
  have hheld : q.closedEntries + q.openEntries ≤ 64 := h.held
  have hword : q.openWord = 0#1 ++ BitVec.ofNat 7 q.openEntries ++ b.number := by simp [UpdateQueue.openWord, hb]
  rw [hword, append_toNat, append_toNat, BitVec.toNat_ofNat, BitVec.toNat_ofNat, hopen]
  omega

/-- With no batch open QUEUE_OPEN shows the next batch number. -/
theorem UpdateQueue.openWord_closed {q : UpdateQueue} (hb : q.openBatch = none) : q.openWord.toNat = q.next.toNat := by
  have hword : q.openWord = 0#8 ++ q.next := by simp [UpdateQueue.openWord, UpdateQueue.openEntries, hb]
  rw [hword, append_toNat, BitVec.toNat_zero, Nat.mul_zero, Nat.zero_add]

/-! ### The oldest record of the log -/

/-- LOG_INFO by its fields; bits 15:4 read 0 (R175). -/
theorem FailRecord.infoWord_toNat (r : FailRecord) : r.infoWord.toNat =
    r.kind.toBit.toNat + 2 * r.region.toBits.toNat + (if r.pass.isSome then 8 else 0) := by
  simp only [FailRecord.infoWord, append_toNat, ofBool_toNat, BitVec.toNat_ofNat,
    mul_add, mul_ite, mul_zero, mul_one, Nat.reducePow, Nat.reduceMul]
  omega

/-- A word of the oldest record is 0 with the log empty (R149). -/
theorem CompareUnit.oldest_nil {c : CompareUnit} (h : c.log = []) (f : FailRecord → Word) : c.oldest f = 0 := by
  simp [CompareUnit.oldest, h]

/-- A word of the oldest record shows the record at the head of the log (R149). -/
theorem CompareUnit.oldest_cons {c : CompareUnit} {r : FailRecord} {rest : List FailRecord} (h : c.log = r :: rest)
    (f : FailRecord → Word) : c.oldest f = f r := by
  simp [CompareUnit.oldest, h]

/-- The words from 0x32 to 0x38 are words of the oldest record (R175). -/
theorem State.regWord_oldest (s : State) {addr : Addr} (hlow : 0x32 ≤ addr.toNat) (hhigh : addr.toNat ≤ 0x38) :
    ∃ f, s.regWord addr = s.compare.oldest f := by
  obtain ⟨k, hk⟩ : ∃ k, addr.toNat = k := ⟨_, rfl⟩
  obtain rfl := Addr.eq_ofNat hk
  rw [hk] at hlow hhigh
  interval_cases k <;> exact ⟨_, rfl⟩

/-- Settles O57: each word is its register's arm of the map, read by its layout lemma; a sound queue keeps the counts within seven bits,
and the seven record words all look at the oldest record. -/
theorem statusWordsShowTheirFields : Obligations.StatusWordsShowTheirFields := by
  unfold Obligations.StatusWordsShowTheirFields
  intro s
  refine ⟨?status, ?outcome, fun hq => ⟨?queueStatus, ?queueOpen⟩, rfl, rfl, word_toNat (by omega), word_toNat (by omega), rfl,
    word_toNat (by omega), ?polarity, fun n => ⟨Lanes.getLsbD_toWord _ n, Lanes.getLsbD_toWord _ n⟩,
    fun hlog => word_toNat (by omega), rfl, fun hlog addr hlow hhigh => ?empty,
    fun r rest hlog => ⟨?info, ?row, ?pass, fun n => ⟨?failing, ?levels⟩, ?high, ?low⟩⟩
  case status =>
    refine s.statusWord_toNat.trans ?_
    cases s.run.seq <;> rfl
  case outcome =>
    refine s.bus.outcomeWord_toNat.trans ?_
    cases s.bus.outcome <;> rfl
  case queueStatus =>
    refine (UpdateQueue.statusWord_toNat hq).trans ?_
    unfold UpdateQueue.damaged
    cases s.queue.openBatch <;> rfl
  case queueOpen =>
    cases hb : s.queue.openBatch with
    | some b => exact UpdateQueue.openWord_open hq hb
    | none => exact UpdateQueue.openWord_closed hb
  case polarity => exact (BitVec.toNat_setWidth_of_le (by decide)).trans (ofBool_toNat _)
  case empty =>
    obtain ⟨f, hf⟩ := s.regWord_oldest hlow hhigh
    exact hf.trans (CompareUnit.oldest_nil hlog f)
  all_goals have hword (f : FailRecord → Word) : s.compare.oldest f = f r := CompareUnit.oldest_cons hlog f
  case info =>
    refine (congrArg BitVec.toNat (hword _)).trans (r.infoWord_toNat.trans ?_)
    cases r.kind <;> cases r.region <;> rfl
  case row => exact (congrArg BitVec.toNat (hword _)).trans (word_toNat (by omega))
  case pass =>
    refine (hword _).trans ?_
    cases r.pass <;> rfl
  case failing => exact (congrArg (BitVec.getLsbD · n.val) (hword _)).trans (Lanes.getLsbD_toWord r.failing n)
  case levels => exact (congrArg (BitVec.getLsbD · n.val) (hword _)).trans (Lanes.getLsbD_toWord r.levels n)
  case high =>
    refine (congrArg BitVec.toNat (hword _)).trans ?_
    have hstamp := r.stamp.isLt
    simp only [BitVec.extractLsb'_toNat, Nat.shiftRight_eq_div_pow]
    omega
  case low =>
    refine (congrArg BitVec.toNat (hword _)).trans ?_
    simp only [BitVec.extractLsb'_toNat, Nat.shiftRight_zero, Nat.reducePow]

end Sys2Proof.Machine
end

section
/-! Every row of the table completes (00_scope.md 3), reports as a command does (R169), and is taken from the front of the queue. -/

namespace Sys2Proof.Machine

/-! ### Every bus cycle that writes is a write cycle -/

/-- Every row of a COMMAND write is the write of its code (R168). -/
theorem exec_command_eq_writeCommand {c : Instr} (h : c.request = .command) (s : State) :
    ∃ code, exec c s = .next (s.writeCommand code) := by
  cases c with
  | start => exact ⟨0x01, exec_commandOfCode 0x01 s⟩
  | arm => exact ⟨0x02, exec_commandOfCode 0x02 s⟩
  | stop => exact ⟨0x03, exec_commandOfCode 0x03 s⟩
  | abort => exact ⟨0x04, exec_commandOfCode 0x04 s⟩
  | setWindow => exact ⟨0x10, exec_commandOfCode 0x10 s⟩
  | seek => exact ⟨0x11, exec_commandOfCode 0x11 s⟩
  | fill => exact ⟨0x12, exec_commandOfCode 0x12 s⟩
  | fillAbort => exact ⟨0x13, exec_commandOfCode 0x13 s⟩
  | closeBatch => exact ⟨0x20, exec_commandOfCode 0x20 s⟩
  | discardBatch => exact ⟨0x21, exec_commandOfCode 0x21 s⟩
  | flushQueue => exact ⟨0x22, exec_commandOfCode 0x22 s⟩
  | commit => exact ⟨0x23, exec_commandOfCode 0x23 s⟩
  | logPop => exact ⟨0x30, exec_commandOfCode 0x30 s⟩
  | logClear => exact ⟨0x31, exec_commandOfCode 0x31 s⟩
  | softReset => exact ⟨0x5A, exec_commandOfCode 0x5A s⟩
  | unknownCommand code => exact ⟨code, rfl⟩
  | _ => cases h

/-- Every bus cycle that writes is a write cycle at its register's address (R166, R167). -/
theorem exec_eq_writeReg {c : Instr} (hevent : c.request ≠ .event) (hread : c ≠ .dataRead) (s : State) :
    ∃ addr value, exec c s = .next (s.writeReg addr value) := by
  by_cases hcommand : c.request = .command
  · obtain ⟨code, hcode⟩ := exec_command_eq_writeCommand hcommand s
    exact ⟨0x03, code, hcode⟩
  · cases c with
    | eventsWrite value => exact ⟨0x05, value, rfl⟩
    | eventEnableWrite value => exact ⟨0x06, value, rfl⟩
    | windowRegisterWrite reg value =>
      cases reg with
      | rowStart => exact ⟨0x08, value, rfl⟩
      | rowEnd => exact ⟨0x09, value, rfl⟩
      | lanes => exact ⟨0x0A, value, rfl⟩
      | mode => exact ⟨0x0B, value, rfl⟩
      | fillValue => exact ⟨0x0F, value, rfl⟩
    | dataWrite word => exact ⟨0x0E, word, rfl⟩
    | layoutWrite reg value =>
      cases reg with
      | base => exact ⟨0x14, value, rfl⟩
      | headLen => exact ⟨0x15, value, rfl⟩
      | loopLen => exact ⟨0x16, value, rfl⟩
      | tailLen => exact ⟨0x17, value, rfl⟩
    | entryOffsetWrite value => exact ⟨0x18, value, rfl⟩
    | passTargetWrite value => exact ⟨0x19, value, rfl⟩
    | runConfigWrite value => exact ⟨0x1C, value, rfl⟩
    | timebaseWrite reg value =>
      cases reg with
      | prescale => exact ⟨0x20, value, rfl⟩
      | period => exact ⟨0x21, value, rfl⟩
      | gateConfig => exact ⟨0x22, value, rfl⟩
    | strobeWrite value => exact ⟨0x23, value, rfl⟩
    | waitLimitWrite value => exact ⟨0x24, value, rfl⟩
    | parkWrite half value =>
      cases half with
      | a => exact ⟨0x28, value, rfl⟩
      | b => exact ⟨0x29, value, rfl⟩
    | termWrite half value =>
      cases half with
      | a => exact ⟨0x2A, value, rfl⟩
      | b => exact ⟨0x2B, value, rfl⟩
    | compareMaskWrite value => exact ⟨0x2C, value, rfl⟩
    | failPolicyWrite value => exact ⟨0x39, value, rfl⟩
    | registerWrite addr value => exact ⟨addr, value, rfl⟩
    | dataRead => exact absurd rfl hread
    | start | arm | stop | abort | setWindow | seek | fill | fillAbort | closeBatch | discardBatch | flushQueue | commit
    | logPop | logClear | softReset | unknownCommand => exact absurd rfl hcommand
    | powerOn | resetNAssert | resetNRelease | sweepRowWrite | fillRowWrite | commitApplicationEnd | trigEdge | gateChange
    | tick | waitTimeout | rowEnd | markPulseEnd | passmarkPulseEnd | uutLaneDriveChange | pulledLevelReached =>
      exact absurd rfl hevent

/-! ### Completion -/

/-- An event of the part leaves the commands waiting. -/
theorem exec_event_pending {c : Instr} (h : c.request = .event) (s : State) : Completes c s fun t => t.pending = s.pending := by
  cases c with
  | powerOn => exact ⟨_, rfl, rfl⟩
  | resetNAssert => exact ⟨_, rfl, rfl⟩
  | resetNRelease =>
    refine ⟨_, rfl, ?_⟩
    unfold State.releaseReset
    split <;> rfl
  | sweepRowWrite => exact ⟨_, rfl, by simp⟩
  | fillRowWrite => exact ⟨_, rfl, by simp⟩
  | commitApplicationEnd => exact ⟨_, rfl, by simp⟩
  | trigEdge level =>
    refine ⟨_, rfl, ?_⟩
    unfold State.sampleTrig State.takeTrigEdge
    dsimp only
    split
    · split <;> simp
    · rfl
  | gateChange level => exact ⟨_, rfl, rfl⟩
  | tick =>
    refine ⟨_, rfl, ?_⟩
    unfold State.completePeriod
    split
    · split <;> simp
    · rfl
  | waitTimeout => exact ⟨_, rfl, by simp⟩
  | rowEnd => exact ⟨_, rfl, by simp⟩
  | markPulseEnd => exact ⟨_, rfl, rfl⟩
  | passmarkPulseEnd => exact ⟨_, rfl, rfl⟩
  | uutLaneDriveChange n d => exact ⟨_, rfl, rfl⟩
  | pulledLevelReached n =>
    refine ⟨_, rfl, ?_⟩
    unfold State.reachPulledLevel
    split <;> rfl
  | _ => cases h

/-- Settles O2: a bus cycle is a write cycle or a read of DATA, which leave the commands waiting with the bus lines; an event leaves
them by its own frame. -/
theorem everyCommandCompletes : Obligations.EveryCommandCompletes := by
  unfold Obligations.EveryCommandCompletes
  intro c s
  by_cases hevent : c.request = .event
  · exact exec_event_pending hevent s
  · by_cases hread : c = .dataRead
    · subst hread
      exact ⟨_, rfl, (s.busCycle_sameLines _ s.readData_sameLines).2.1⟩
    · obtain ⟨addr, value, hwrite⟩ := exec_eq_writeReg hevent hread s
      exact ⟨_, hwrite, (s.writeReg_sameLines addr value).2.1⟩

/-- Settles O1: the step on a queue that is not empty is the command at its front. -/
theorem stepTakesTheFrontCommand : Obligations.StepTakesTheFrontCommand := by
  unfold Obligations.StepTakesTheFrontCommand
  intro s c rest hpending
  unfold step
  rw [hpending]

/-! ### Reports -/

/-- No command's owner touches the bus: the outcome is placed by the report (R169). -/
theorem State.ownerOf_bus (s : State) (code : Word) : (State.ownerOf code s).1.bus = s.bus := by
  unfold State.ownerOf
  split
  · unfold State.startCommand; split <;> (try split) <;> simp
  · unfold State.armCommand; split <;> (try split) <;> simp
  · unfold State.stopCommand; split <;> simp
  · unfold State.abortCommand; split <;> simp
  · unfold State.setWindow; split <;> (try split) <;> rfl
  · unfold State.seek; split <;> rfl
  · unfold State.fillCommand; split <;> (try split) <;> rfl
  · unfold State.fillAbort; split <;> (try split) <;> rfl
  · unfold State.closeBatch; split <;> (try split) <;> simp
  · unfold State.discardBatch; split <;> rfl
  · rfl
  · unfold State.commitCommand; split <;> (try split) <;> simp
  · unfold State.popLog; split <;> rfl
  all_goals rfl

/-- With RESET_N high a COMMAND write advances the serial by 1, refused or not (R169). -/
theorem State.writeCommand_serial (s : State) (h : s.pins.resetLow = false) (code : Word) :
    (s.writeCommand code).bus.serial = s.bus.serial + 1 := by
  unfold State.writeCommand State.command State.busCycle
  simp only [h, Bool.false_eq_true, if_false]
  split
  · rfl
  · simp [s.ownerOf_bus code]

/-- A code outside the table of R168 is no row. -/
theorem commandOfCode_eq_none {code : Word} (h : code.toNat ∉
    [0x01, 0x02, 0x03, 0x04, 0x10, 0x11, 0x12, 0x13, 0x20, 0x21, 0x22, 0x23, 0x30, 0x31, 0x5A]) : commandOfCode code = none := by
  unfold commandOfCode
  split
  case h_16 => rfl
  all_goals
    rename_i hcode
    rw [hcode] at h
    exact absurd h (by decide)

theorem State.ownerOf_unknown (s : State) {code : Word} (h : commandOfCode code = none) : State.ownerOf code s = (s, .unknown) := by
  unfold State.ownerOf
  rw [h]

/-- A report changes the bus alone (R169). -/
theorem sameBut_report (s : State) (o : CmdOutcome) : SameBut [.bus] s (s.report o) := by
  intro p hp
  cases p <;> simp_all [Part.same]

/-- Settles O55: every COMMAND row is the write of its code, whose report advances the serial; a code outside the table has no owner. -/
theorem everyCommandWriteIsReported : Obligations.EveryCommandWriteIsReported := by
  unfold Obligations.EveryCommandWriteIsReported
  intro s
  refine ⟨fun hreset c hc => ?_, fun code hready hcode => ?_, fun o => ⟨rfl, sameBut_report s o⟩⟩
  · obtain ⟨code, hwrite⟩ := exec_command_eq_writeCommand hc s
    exact ⟨_, hwrite, s.writeCommand_serial hreset code⟩
  · show Host.Outcome.next (s.command (State.ownerOf code)) = _
    rw [s.command_ready _ hready, s.ownerOf_unknown (commandOfCode_eq_none hcode)]

end Sys2Proof.Machine
end

section
/-! The clauses of the invariant by the parts of the state they read, so that an operation answers only for the clauses whose parts it
changes. -/

namespace Sys2Proof

open Machine

/-! ### Each clause reads its own parts -/

theorem memorySound_congr {s t : State} (h : MemorySound s) (hpm : t.pm = s.pm) (hqueue : t.queue = s.queue)
    (hseq : t.run.seq = s.run.seq) (hreset : t.pins.resetLow = s.pins.resetLow) : MemorySound t := by
  obtain ⟨hwf, hfill, hsweep, hcommits, hheld⟩ := h
  constructor <;> simp only [hpm, hqueue, hseq, hreset] <;> assumption

theorem timebaseSound_congr {s t : State} (h : TimebaseSound s) (htimebase : t.timebase = s.timebase)
    (hseq : t.run.seq = s.run.seq) (hcommits : t.pm.commits = s.pm.commits) : TimebaseSound t := by
  obtain ⟨hcounting, hprescale, hperiod, hstart⟩ := h
  constructor <;> simp only [htimebase, hseq, hcommits] <;> assumption

theorem lanesSound_congr {s t : State} (h : LanesSound s) (hlanes : t.lanes = s.lanes) (hseq : t.run.seq = s.run.seq)
    (hlatched : t.play.latched = s.play.latched) (hreset : t.pins.resetLow = s.pins.resetLow) : LanesSound t := by
  obtain ⟨hactive, hparked, hplayed⟩ := h
  constructor <;> simp only [hlanes, hseq, hlatched, hreset] <;> assumption

theorem logSound_congr {s t : State} (h : LogSound s) (hcompare : t.compare.log = s.compare.log)
    (hstamp : t.timebase.stamp = s.timebase.stamp) : LogSound t := by
  obtain ⟨hlength, hordered, hreached, hrecords⟩ := h
  constructor <;> simp only [hcompare, hstamp] <;> assumption

theorem busSound_congr {s t : State} (h : BusSound s) (hdriven : t.bus.driven = s.bus.driven) (hseen : t.bus.seen = s.bus.seen)
    (hreset : t.pins.resetLow = s.pins.resetLow) : BusSound t := by
  obtain ⟨hheld, hstrobes⟩ := h
  constructor <;> simp only [hdriven, hseen, hreset] <;> assumption

/-- What row playback's clause reads. -/
def SamePlay (s t : State) : Prop :=
  t.play = s.play ∧ t.run.seq = s.run.seq ∧ t.run.curRow = s.run.curRow ∧ t.pins.resetLow = s.pins.resetLow

theorem SamePlay.timeoutDue {s t : State} (h : SamePlay s t) : t.timeoutDue = s.timeoutDue := by
  obtain ⟨hplay, hseq, -, hreset⟩ := h
  simp only [State.timeoutDue, hplay, hseq, hreset]

theorem SamePlay.rowEndDue {s t : State} (h : SamePlay s t) : t.rowEndDue = s.rowEndDue := by
  obtain ⟨hplay, hseq, -, hreset⟩ := h
  simp only [State.rowEndDue, hplay, hseq, hreset]

theorem playSound_congr {s t : State} (h : PlaySound s) (hsame : SamePlay s t) : PlaySound t := by
  have htimeout := hsame.timeoutDue
  obtain ⟨hplay, hseq, hrow, -⟩ := hsame
  obtain ⟨_, _, _, _, _, _, _, _⟩ := h
  constructor <;> simp only [hplay, hseq, hrow, htimeout] <;> assumption

/-! ### The clauses but row playback's -/

/-- Every clause of the invariant but row playback's, which alone fails inside a tick's event. -/
structure InvButPlay (s : State) : Prop where
  memory : MemorySound s
  window : WindowSound s.window
  queue : QueueSound s.queue
  timebase : TimebaseSound s
  layout : LayoutSound s.run
  marks : MarksSound s.run
  target : TargetSound s.run
  position : PositionSound s.run
  lanes : LanesSound s
  keepers : KeepersFollow s.lanes
  log : LogSound s
  bus : BusSound s

theorem inv_iff (s : State) : Inv s ↔ InvButPlay s ∧ PlaySound s :=
  ⟨fun ⟨a, b, c, d, e, f, g, h, p, i, j, k, l⟩ => ⟨⟨a, b, c, d, e, f, g, h, i, j, k, l⟩, p⟩,
    fun ⟨⟨a, b, c, d, e, f, g, h, i, j, k, l⟩, p⟩ => ⟨a, b, c, d, e, f, g, h, p, i, j, k, l⟩⟩

/-- An operation that row playback's clause does not read keeps the invariant if it keeps the other clauses. -/
theorem Inv.of_butPlay {s t : State} (h : Inv s) (ht : InvButPlay t) (hplay : SamePlay s t) : Inv t :=
  (inv_iff t).2 ⟨ht, playSound_congr h.play hplay⟩

theorem Inv.butPlay {s : State} (h : Inv s) : InvButPlay s := ((inv_iff s).1 h).1

/-- Everything the invariant reads is the same in two states. -/
def SameCore (s t : State) : Prop :=
  t.pm = s.pm ∧ t.window = s.window ∧ t.queue = s.queue ∧ t.timebase = s.timebase ∧ t.run = s.run ∧ t.play = s.play ∧
    t.lanes = s.lanes ∧ t.compare = s.compare ∧ t.bus.seen = s.bus.seen ∧ t.bus.driven = s.bus.driven ∧
    t.pins.resetLow = s.pins.resetLow

theorem SameCore.samePlay {s t : State} (h : SameCore s t) : SamePlay s t := by
  obtain ⟨-, -, -, -, hrun, hplay, -, -, -, -, hreset⟩ := h
  exact ⟨hplay, by rw [hrun], by rw [hrun], hreset⟩

section
variable {s t : State}

theorem InvButPlay.of_core (h : InvButPlay s) (hcore : SameCore s t) : InvButPlay t := by
  obtain ⟨hpm, hwindow, hqueue, htimebase, hrun, hplay, hlanes, hcompare, hseen, hdriven, hreset⟩ := hcore
  exact {
    memory := memorySound_congr h.memory hpm hqueue (by rw [hrun]) hreset
    window := hwindow ▸ h.window
    queue := hqueue ▸ h.queue
    timebase := timebaseSound_congr h.timebase htimebase (by rw [hrun]) (by rw [hpm])
    layout := hrun ▸ h.layout
    marks := hrun ▸ h.marks
    target := hrun ▸ h.target
    position := hrun ▸ h.position
    lanes := lanesSound_congr h.lanes hlanes (by rw [hrun]) (by rw [hplay]) hreset
    keepers := hlanes ▸ h.keepers
    log := logSound_congr h.log (by rw [hcompare]) (by rw [htimebase])
    bus := busSound_congr h.bus hdriven hseen hreset }

/-- The event unit, the outcome, the word read, TRIG, GATE, the counter of the free values and the commands waiting are not read. -/
theorem Inv.of_core (h : Inv s) (hcore : SameCore s t) : Inv t := h.of_butPlay (h.butPlay.of_core hcore) hcore.samePlay

/-! ### One part changed -/

/-- A window that stands in for another. -/
theorem InvButPlay.withWindow (h : InvButPlay s) {w : AccessWindow} (hw : WindowSound w) : InvButPlay { s with window := w } :=
  { h with
    memory := memorySound_congr h.memory rfl rfl rfl rfl
    window := hw
    timebase := timebaseSound_congr h.timebase rfl rfl rfl
    lanes := lanesSound_congr h.lanes rfl rfl rfl rfl
    log := logSound_congr h.log rfl rfl
    bus := busSound_congr h.bus rfl rfl rfl }

/-- Pattern memory and the queue changed; a first latch that waits still has an application to wait for. -/
theorem InvButPlay.withMemory (h : InvButPlay s) {p : PatternMemory} {q : UpdateQueue} (hm : MemorySound { s with pm := p, queue := q })
    (hq : QueueSound q) (hcommits : s.timebase.startHeld = true → p.commits ≠ []) : InvButPlay { s with pm := p, queue := q } :=
  { h with
    memory := hm
    queue := hq
    timebase := ⟨h.timebase.counting, h.timebase.prescaleCount, h.timebase.periodCount,
      fun hheld => ⟨(h.timebase.startHeld hheld).1, hcommits hheld⟩⟩
    lanes := lanesSound_congr h.lanes rfl rfl rfl rfl
    log := logSound_congr h.log rfl rfl
    bus := busSound_congr h.bus rfl rfl rfl }

/-- The timebase changed, its stamp not gone back. -/
theorem InvButPlay.withTimebase (h : InvButPlay s) {b : Timebase} (hb : TimebaseSound { s with timebase := b })
    (hstamp : s.timebase.stamp.toNat ≤ b.stamp.toNat) : InvButPlay { s with timebase := b } :=
  { h with
    memory := memorySound_congr h.memory rfl rfl rfl rfl
    timebase := hb
    lanes := lanesSound_congr h.lanes rfl rfl rfl rfl
    log := ⟨h.log.length, h.log.ordered, fun r hr => (h.log.reached r hr).trans hstamp, h.log.records⟩
    bus := busSound_congr h.bus rfl rfl rfl }

/-- Run control's registers changed, in the same sequencer state. -/
theorem InvButPlay.withRun (h : InvButPlay s) {r : RunControl} (hseq : r.seq = s.run.seq) (hlayout : LayoutSound r)
    (hmarks : MarksSound r) (htarget : TargetSound r) (hposition : PositionSound r) : InvButPlay { s with run := r } :=
  { h with
    memory := memorySound_congr h.memory rfl rfl hseq rfl
    timebase := timebaseSound_congr h.timebase rfl hseq rfl
    layout := hlayout
    marks := hmarks
    target := htarget
    position := hposition
    lanes := lanesSound_congr h.lanes rfl hseq rfl rfl
    log := logSound_congr h.log rfl rfl
    bus := busSound_congr h.bus rfl rfl rfl }

/-- Row playback changed, with the same row latched. -/
theorem InvButPlay.withPlay (h : InvButPlay s) {p : Playback} (hlatched : p.latched = s.play.latched) :
    InvButPlay { s with play := p } :=
  { h with
    memory := memorySound_congr h.memory rfl rfl rfl rfl
    timebase := timebaseSound_congr h.timebase rfl rfl rfl
    lanes := lanesSound_congr h.lanes rfl rfl hlatched rfl
    log := logSound_congr h.log rfl rfl
    bus := busSound_congr h.bus rfl rfl rfl }

/-- The lane unit changed. -/
theorem InvButPlay.withLanes (h : InvButPlay s) {u : LaneUnit} (hu : LanesSound { s with lanes := u }) (hkeepers : KeepersFollow u) :
    InvButPlay { s with lanes := u } :=
  { h with
    memory := memorySound_congr h.memory rfl rfl rfl rfl
    timebase := timebaseSound_congr h.timebase rfl rfl rfl
    lanes := hu
    keepers := hkeepers
    log := logSound_congr h.log rfl rfl
    bus := busSound_congr h.bus rfl rfl rfl }

/-- The compare unit changed. -/
theorem InvButPlay.withCompare (h : InvButPlay s) {c : CompareUnit} (hc : LogSound { s with compare := c }) :
    InvButPlay { s with compare := c } :=
  { h with
    memory := memorySound_congr h.memory rfl rfl rfl rfl
    timebase := timebaseSound_congr h.timebase rfl rfl rfl
    lanes := lanesSound_congr h.lanes rfl rfl rfl rfl
    log := hc
    bus := busSound_congr h.bus rfl rfl rfl }

/-- The bus changed. -/
theorem InvButPlay.withBus (h : InvButPlay s) {b : HostBus} (hb : BusSound { s with bus := b }) : InvButPlay { s with bus := b } :=
  { h with
    memory := memorySound_congr h.memory rfl rfl rfl rfl
    timebase := timebaseSound_congr h.timebase rfl rfl rfl
    lanes := lanesSound_congr h.lanes rfl rfl rfl rfl
    log := logSound_congr h.log rfl rfl
    bus := hb }

/-- One request taken by the lane unit: the keepers follow of themselves (R127). -/
theorem InvButPlay.setLanes (h : InvButPlay s) {f : LaneUnit → LaneUnit} (hf : LanesSound { s with lanes := f s.lanes }) :
    InvButPlay (s.setLanes f) := by
  have hsettled : LanesSound { s with lanes := s.lanes.settle (f s.lanes) s.free } := by
    obtain ⟨hactive, hparked, hplayed⟩ := hf
    constructor <;> simpa using by assumption
  exact (h.withLanes hsettled (s.setLanes_keepersFollow f)).of_core (by simp [SameCore])

end

/-! ### Requests -/

section
variable {s : State}

theorem Inv.raise (h : Inv s) (e : Event) : Inv (s.raise e) := h.of_core (by simp [SameCore])

theorem Inv.raiseIf (h : Inv s) (c : Bool) (e : Event) : Inv (s.raiseIf c e) := h.of_core (by simp [SameCore])

theorem Inv.report (h : Inv s) (o : CmdOutcome) : Inv (s.report o) := h.of_core (by simp [SameCore])

theorem Inv.setLanes (h : Inv s) {f : LaneUnit → LaneUnit} (hf : LanesSound { s with lanes := f s.lanes }) : Inv (s.setLanes f) :=
  h.of_butPlay (h.butPlay.setLanes hf) (by simp [SamePlay])

/-- A bus cycle keeps the invariant if its owner does with RESET_N high. -/
theorem Inv.busCycle (h : Inv s) {f : State → State} (hf : s.pins.resetLow = false → Inv (f s)) : Inv (s.busCycle f) := by
  unfold State.busCycle
  split
  · exact h
  · next hreset => exact hf (by simpa using hreset)

/-- A register write keeps the invariant if its owner does. -/
theorem Inv.regWrite (h : Inv s) {f : State → State} (hf : Ready s → Inv (f s)) : Inv (s.regWrite f) := by
  refine h.busCycle fun hreset => ?_
  split
  · exact h.raise _
  · next hsweep => exact hf ⟨hreset, by simpa using hsweep⟩

/-- A command keeps the invariant if its owner does. -/
theorem Inv.command (h : Inv s) {f : State → State × CmdOutcome} (hf : Ready s → Inv (f s).1) : Inv (s.command f) := by
  refine h.busCycle fun hreset => ?_
  split
  · exact h.report _
  · next hsweep => exact (hf ⟨hreset, by simpa using hsweep⟩).report _

/-- Outside IDLE RESET_N is high and no sweep is in progress (R9). -/
theorem MemorySound.ready (h : MemorySound s) (hseq : s.run.seq ≠ .idle) : Ready s := by
  refine ⟨?_, ?_⟩
  · by_contra hreset
    exact hseq (h.reset (by simpa using hreset)).1
  · by_contra hsweep
    exact hseq (h.sweep (Option.isSome_iff_ne_none.2 hsweep)).1

/-- Outside the sweep and the reset pattern memory answers for its rows, its fill and its applications alone. -/
theorem MemorySound.of_ready (h : Ready s) (hwf : s.pm.rows.wf = true)
    (hfill : ∀ f, s.pm.fill = some f → f.rowStart ≤ f.row ∧ f.row ≤ f.rowEnd ∧ f.laneStart ≤ f.laneEnd)
    (hcommits : ∀ n ∈ s.pm.commits, 1 ≤ n) : MemorySound s where
  wf := hwf
  fill f hf := by
    obtain ⟨hlow, hhigh, hlanes⟩ := hfill f hf
    exact ⟨hlow, hhigh, hlanes, h.2⟩
  sweep hsweep := by simp [h.2] at hsweep
  commits := hcommits
  reset hreset := by simp [h.1] at hreset

end

end Sys2Proof
end

section
/-! The window and the queue keep their clauses of the invariant: the cursor in its window (R19), the queue in its bounds (R40, R42). -/

namespace Sys2Proof.Machine

/-! ### Rows and lanes one on -/

/-- The row after one that is not the highest of a range. -/
theorem row_succ_val {r high : RowNum} (h : r < high) : (r + 1).val = r.val + 1 :=
  Fin.val_add_one_of_lt' (by have := high.isLt; rw [Fin.lt_def] at h; omega)

/-- The row before one that is not the lowest of a range. -/
theorem row_pred_val {r low : RowNum} (h : low < r) : (r - 1).val = r.val - 1 := by
  rw [Fin.lt_def] at h
  rw [Fin.sub_val_of_le (by rw [Fin.le_def, Fin.val_one]; omega), Fin.val_one]

/-- The lane after one that is not the highest of a range. -/
theorem lane_succ_val {n high : Lane} (h : n < high) : (n + 1).val = n.val + 1 :=
  Fin.val_add_one_of_lt' (by have := high.isLt; rw [Fin.lt_def] at h; omega)

/-! ### The cursor -/

/-- A place the walk of a window can stand at (R19). -/
structure Window.Holds (w : Window) (p : Place) : Prop where
  row : w.rowStart ≤ p.row ∧ p.row ≤ w.rowEnd
  lane : w.laneStart ≤ p.lane ∧ p.lane ≤ w.laneEnd
  attributeLane : w.mode.plane = .attributes → p.lane = w.laneStart

section
variable {w : Window} {p : Place}

theorem Window.originRow_within (hw : w.Ordered) : w.rowStart ≤ w.originRow ∧ w.originRow ≤ w.rowEnd := by
  unfold Window.originRow
  cases w.mode.direction with
  | ascending => exact ⟨le_rfl, hw.rows⟩
  | descending => exact ⟨hw.rows, le_rfl⟩

theorem Window.holds_origin (hw : w.Ordered) : w.Holds w.origin := ⟨w.originRow_within hw, ⟨le_rfl, hw.lanes⟩, fun _ => rfl⟩

/-- The next row of a row that is not the far row lies in the row bounds too (R24). -/
theorem Window.nextRow_within {r : RowNum} (hr : w.rowStart ≤ r ∧ r ≤ w.rowEnd) (hfar : r ≠ w.farRow) :
    w.rowStart ≤ w.nextRow r ∧ w.nextRow r ≤ w.rowEnd := by
  obtain ⟨hlow, hhigh⟩ := hr
  unfold Window.farRow at hfar
  unfold Window.nextRow
  cases hd : w.mode.direction <;> simp only [hd] at hfar ⊢ <;> simp only [Fin.le_def] at *
  · have hnext := row_succ_val (lt_of_le_of_ne hhigh hfar)
    have hlt : r.val < w.rowEnd.val := lt_of_le_of_ne hhigh (Fin.val_ne_of_ne hfar)
    omega
  · have hnext := row_pred_val (lt_of_le_of_ne hlow (Ne.symm hfar))
    have hlt : w.rowStart.val < r.val := lt_of_le_of_ne hlow (Fin.val_ne_of_ne (Ne.symm hfar))
    omega

/-- The lane after a lane that is not the lane end lies in the lane bounds too. -/
theorem Window.lane_succ_within {n : Lane} (hn : w.laneStart ≤ n ∧ n ≤ w.laneEnd) (hend : n ≠ w.laneEnd) :
    w.laneStart ≤ n + 1 ∧ n + 1 ≤ w.laneEnd := by
  obtain ⟨hlow, hhigh⟩ := hn
  have hnext := lane_succ_val (lt_of_le_of_ne hhigh hend)
  have hlt : n.val < w.laneEnd.val := lt_of_le_of_ne hhigh (Fin.val_ne_of_ne hend)
  simp only [Fin.le_def] at *
  omega

/-- Every move leads to a place of the walk (R24, R25, R26, R27). -/
theorem Window.Holds.advance (hw : w.Ordered) (h : w.Holds p) : w.Holds (w.advance p) := by
  unfold Window.advance
  split
  · exact w.holds_origin hw
  · next hlast =>
    unfold Window.atLast at hlast
    cases hp : w.mode.plane with
    | attributes =>
      simp only [hp, beq_iff_eq] at hlast ⊢
      exact ⟨w.nextRow_within h.row hlast, h.lane, h.attributeLane⟩
    | cells =>
      have hcells : w.mode.plane ≠ .attributes := by simp [hp]
      simp only [hp, Bool.and_eq_true, beq_iff_eq] at hlast ⊢
      cases w.mode.traversal with
      | laneFirst =>
        dsimp only
        split
        · next hend => exact ⟨w.nextRow_within h.row fun hfar => hlast ⟨hfar, hend⟩, ⟨le_rfl, hw.lanes⟩,
            fun ha => absurd ha hcells⟩
        · next hend => exact ⟨h.row, w.lane_succ_within h.lane hend, fun ha => absurd ha hcells⟩
      | rowFirst =>
        dsimp only
        split
        · next hfar =>
          exact ⟨w.originRow_within hw, w.lane_succ_within h.lane fun hend => hlast ⟨hfar, hend⟩, fun ha => absurd ha hcells⟩
        · next hfar => exact ⟨w.nextRow_within h.row hfar, h.lane, fun ha => absurd ha hcells⟩

theorem Window.Holds.after (hw : w.Ordered) (h : w.Holds p) (n : Nat) : w.Holds (w.after p n) := by
  induction n generalizing p with
  | zero => exact h
  | succ n ih => exact ih (h.advance hw)

end

/-! ### The queue -/

section
variable {q : UpdateQueue}

/-- A taken entry stays within the 64 and opens or joins the open batch (R44). -/
theorem queueSound_append (h : QueueSound q) (ht : q.takes = true) {e : Entry} (he : EntrySound e) : QueueSound (q.append e) := by
  simp only [UpdateQueue.takes, Bool.and_eq_true, decide_eq_true_eq] at ht
  obtain ⟨-, hroom⟩ := ht
  unfold UpdateQueue.held UpdateQueue.openEntries at hroom
  unfold UpdateQueue.append
  cases hopen : q.openBatch with
  | none =>
    rw [hopen] at hroom
    refine ⟨?_, h.closedNonempty, ?_, h.closedEntries, ?_⟩
    · simp only [UpdateQueue.held, UpdateQueue.openEntries, UpdateQueue.openWith, UpdateQueue.closedEntries] at hroom ⊢
      simp only [List.length_singleton]
      omega
    · rintro _ ⟨⟩ _
      exact List.cons_ne_nil _ _
    · rintro _ ⟨⟩ d hd
      exact List.mem_singleton.1 hd ▸ he
  | some b =>
    rw [hopen] at hroom
    refine ⟨?_, h.closedNonempty, ?_, h.closedEntries, ?_⟩
    · simp only [UpdateQueue.held, UpdateQueue.openEntries, UpdateQueue.closedEntries] at hroom ⊢
      simp only [List.length_append, List.length_singleton]
      omega
    · rintro _ ⟨⟩ _
      exact List.append_ne_nil_of_right_ne_nil _ (List.cons_ne_nil _ _)
    · rintro _ ⟨⟩ d hd
      rcases List.mem_append.1 hd with hd | hd
      · exact h.openEntries b hopen d hd
      · exact List.mem_singleton.1 hd ▸ he

/-- A refused entry adds none and leaves the open batch damaged (R45, R46). -/
theorem queueSound_refuse (h : QueueSound q) : QueueSound q.refuse := by
  have hheld := h.held
  unfold UpdateQueue.held UpdateQueue.openEntries at hheld
  unfold UpdateQueue.refuse
  cases hopen : q.openBatch with
  | none =>
    rw [hopen] at hheld
    refine ⟨hheld, h.closedNonempty, ?_, h.closedEntries, ?_⟩
    · rintro _ ⟨⟩ hd
      cases hd
    · rintro _ ⟨⟩ d hd
      cases hd
  | some b =>
    rw [hopen] at hheld
    refine ⟨hheld, h.closedNonempty, ?_, h.closedEntries, ?_⟩
    · rintro _ ⟨⟩ hd
      cases hd
    · rintro _ ⟨⟩ d hd
      exact h.openEntries b hopen d hd

/-- The open batch leaves the queue (R48, R49). -/
theorem queueSound_dropOpen (h : QueueSound q) : QueueSound { q with openBatch := none } := by
  refine ⟨?_, h.closedNonempty, nofun, h.closedEntries, nofun⟩
  exact (Nat.le_add_right q.closedEntries q.openEntries).trans h.held

/-- The closed batches leave the queue (R50, R51). -/
theorem queueSound_dropClosed (h : QueueSound q) : QueueSound { q with closed := [] } := by
  refine ⟨?_, nofun, h.openNonempty, nofun, h.openEntries⟩
  have hopen : q.openEntries ≤ q.held := Nat.le_add_left _ _
  simpa [UpdateQueue.held, UpdateQueue.closedEntries, UpdateQueue.openEntries] using hopen.trans h.held

/-- An undamaged open batch becomes the newest closed one (R47). -/
theorem queueSound_close (h : QueueSound q) {b : OpenBatch} (hopen : q.openBatch = some b) (hd : b.damaged = false) :
    QueueSound { q with closed := q.closed ++ [⟨b.number, b.entries⟩], openBatch := none } := by
  have hheld := h.held
  refine ⟨?_, ?_, nofun, ?_, nofun⟩
  · simpa [UpdateQueue.held, UpdateQueue.closedEntries, UpdateQueue.openEntries, hopen] using hheld
  · intro c hc
    rcases List.mem_append.1 hc with hc | hc
    · exact h.closedNonempty c hc
    · exact List.mem_singleton.1 hc ▸ h.openNonempty b hopen hd
  · intro c hc
    rcases List.mem_append.1 hc with hc | hc
    · exact h.closedEntries c hc
    · exact List.mem_singleton.1 hc ▸ h.openEntries b hopen

/-- After a commit the queue holds its open batch alone (R51). -/
theorem commitPoint_queueSound {s : State} (h : QueueSound s.queue) : QueueSound s.commitPoint.queue := by
  obtain ⟨-, -, -, -, -, hqueue⟩ := s.commitPoint_committed
  rw [hqueue]
  exact queueSound_dropClosed h

end

end Sys2Proof.Machine
end

section
/-! Requests that touch neither the latched row nor the sequencer state keep the invariant: pattern memory's own operations, the window's,
the queue's, the lane settings and the register writes. -/

namespace Sys2Proof

open Machine

variable {s : Machine.State}

/-! ### Pattern memory -/

/-- Outside the sweep the rows may hold anything in canonical form. -/
theorem Inv.withRows (h : Inv s) (hready : Ready s) {m : Memory} (hm : m.wf = true) :
    Inv { s with pm := { s.pm with rows := m } } := by
  refine h.of_butPlay (h.butPlay.withMemory (q := s.queue) ?_ h.queue fun hheld => (h.timebase.startHeld hheld).2)
    ⟨rfl, rfl, rfl, rfl⟩
  exact .of_ready hready hm (fun f hf => (h.memory.fill f hf).imp_right fun ⟨hhigh, hlanes, _⟩ => ⟨hhigh, hlanes⟩) h.memory.commits

/-- Outside the sweep the fill may stand at any row of its window. -/
theorem Inv.withFill (h : Inv s) (hready : Ready s) {f : Option Fill}
    (hf : ∀ g, f = some g → g.rowStart ≤ g.row ∧ g.row ≤ g.rowEnd ∧ g.laneStart ≤ g.laneEnd) :
    Inv { s with pm := { s.pm with fill := f } } :=
  h.of_butPlay (h.butPlay.withMemory (q := s.queue) (.of_ready hready h.memory.wf hf h.memory.commits) h.queue
    fun hheld => (h.timebase.startHeld hheld).2) ⟨rfl, rfl, rfl, rfl⟩

/-- Outside the sweep the queue may hold anything within its bounds. -/
theorem Inv.withQueue (h : Inv s) (hready : Ready s) {q : UpdateQueue} (hq : QueueSound q) : Inv { s with queue := q } := by
  refine h.of_butPlay (h.butPlay.withMemory (p := s.pm) ?_ hq fun hheld => (h.timebase.startHeld hheld).2) ⟨rfl, rfl, rfl, rfl⟩
  exact .of_ready hready h.memory.wf (fun f hf => (h.memory.fill f hf).imp_right fun ⟨hhigh, hlanes, _⟩ => ⟨hhigh, hlanes⟩)
    h.memory.commits

/-- The sweep stands at any row, or is over. -/
theorem Inv.withSweep (h : Inv s) (hsweep : s.pm.sweep.isSome = true) {m : Memory} (hm : m.wf = true) (r : Option RowNum) :
    Inv { s with pm := { s.pm with rows := m, sweep := r } } := by
  refine h.of_butPlay (h.butPlay.withMemory (q := s.queue) ?_ h.queue fun hheld => (h.timebase.startHeld hheld).2)
    ⟨rfl, rfl, rfl, rfl⟩
  have hnone : s.pm.sweep ≠ none := Option.isSome_iff_ne_none.1 hsweep
  exact { h.memory with
    wf := hm
    fill := fun f hf => absurd (h.memory.fill f hf).2.2.2 hnone
    sweep := fun _ => h.memory.sweep hsweep
    reset := fun hreset => absurd (h.memory.reset hreset).2.1 hnone }

theorem Inv.sweepRow (h : Inv s) : Inv s.sweepRow := by
  unfold State.sweepRow
  split
  · exact h
  · next r hr =>
    have hsweep : s.pm.sweep.isSome = true := by rw [hr]; rfl
    have hwf := Memory.wf_writeRow r .reset h.memory.wf
    split
    · exact (h.withSweep hsweep hwf none).raise _
    · exact h.withSweep hsweep hwf _

/-- With a fill in progress RESET_N is high and no sweep is (R9, R171). -/
theorem Inv.ready_of_fill (h : Inv s) {f : Fill} (hf : s.pm.fill = some f) : Ready s := by
  refine ⟨?_, (h.memory.fill f hf).2.2.2⟩
  by_contra hreset
  have hnone := (h.memory.reset (by simpa using hreset)).2.2.1
  rw [hf] at hnone
  cases hnone

/-- The row after the present one, where that is not the last, is a row of the fill's window (R13). -/
theorem Machine.Fill.nextRow_within {f : Fill} (hf : f.rowStart ≤ f.row ∧ f.row ≤ f.rowEnd) (hlast : f.row ≠ f.lastRow) :
    f.rowStart ≤ f.nextRow ∧ f.nextRow ≤ f.rowEnd := by
  obtain ⟨hlow, hhigh⟩ := hf
  unfold Fill.lastRow at hlast
  unfold Fill.nextRow
  cases hd : f.direction <;> simp only [hd] at hlast ⊢ <;> simp only [Fin.le_def] at *
  · have hnext := row_succ_val (lt_of_le_of_ne hhigh hlast)
    have hlt : f.row.val < f.rowEnd.val := lt_of_le_of_ne hhigh (Fin.val_ne_of_ne hlast)
    omega
  · have hnext := row_pred_val (lt_of_le_of_ne hlow (Ne.symm hlast))
    have hlt : f.rowStart.val < f.row.val := lt_of_le_of_ne hlow (Fin.val_ne_of_ne (Ne.symm hlast))
    omega

theorem Inv.fillRow (h : Inv s) : Inv s.fillRow := by
  unfold State.fillRow
  split
  · exact h
  · next f hf =>
    obtain ⟨hlow, hhigh, hlanes, -⟩ := h.memory.fill f hf
    have hready := h.ready_of_fill hf
    have hwritten := h.withRows hready (Memory.wf_writeRow f.row (f.write (s.pm.rows.row f.row)) h.memory.wf)
    dsimp only
    split
    · exact h
    · split
      · exact hwritten.withFill (f := none) hready nofun
      · split
        · exact (hwritten.withFill (f := none) hready nofun).raise _
        · next hlast =>
          refine hwritten.withFill hready ?_
          rintro _ ⟨⟩
          exact ⟨(f.nextRow_within ⟨hlow, hhigh⟩ hlast).1, (f.nextRow_within ⟨hlow, hhigh⟩ hlast).2, hlanes⟩

/-- The oldest application ends, and with the last of them a first latch that waited has been made (R65). -/
theorem Machine.State.endCommitApplication_cons (s : Machine.State) {n : Nat} {rest : List Nat} (h : s.pm.commits = n :: rest) :
    s.endCommitApplication = { s with
      pm := { s.pm with commits := rest }
      timebase := { s.timebase with startHeld := if rest = [] then false else s.timebase.startHeld } } := by
  unfold State.endCommitApplication State.releaseStart
  cases rest <;> simp [h]

theorem Inv.endCommitApplication (h : Inv s) : Inv s.endCommitApplication := by
  cases hc : s.pm.commits with
  | nil =>
    unfold State.endCommitApplication
    rw [hc]
    exact h
  | cons n rest =>
    rw [s.endCommitApplication_cons hc]
    have hreleased := h.butPlay.withTimebase
      (b := { s.timebase with startHeld := if rest = [] then false else s.timebase.startHeld })
      { h.timebase with startHeld := fun hheld => h.timebase.startHeld (by simp_all) } le_rfl
    refine h.of_butPlay (hreleased.withMemory (q := s.queue) (p := { s.pm with commits := rest }) ?_ h.queue ?_) ⟨rfl, rfl, rfl, rfl⟩
    · exact { h.memory with
        sweep := fun hsweep => by
          have hnil := (h.memory.sweep hsweep).2.2.2
          rw [hc] at hnil
          cases hnil
        commits := fun m hm => h.memory.commits m (hc ▸ List.mem_cons_of_mem _ hm)
        reset := fun hreset => by
          have hnil := (h.memory.reset hreset).2.2.2
          rw [hc] at hnil
          cases hnil }
    · intro hheld hnil
      exact Bool.false_ne_true ((if_pos hnil).symm.trans hheld)

theorem Inv.fillCommand (h : Inv s) (hready : Ready s) : Inv s.fillCommand.1 := by
  unfold State.fillCommand
  split
  · exact h
  · split
    · exact h
    · have horigin := s.window.eff.originRow_within ⟨h.window.rows, h.window.lanes⟩
      refine h.withFill hready ?_
      rintro _ ⟨⟩
      exact ⟨horigin.1, horigin.2, h.window.lanes⟩

/-- The fill that FILL ABORT or SOFT RESET leaves stands where the fill stood (R17, R18). -/
theorem Inv.fillAfterAbort_within (h : Inv s) (n : Nat) {g : Fill} (hg : s.pm.fillAfterAbort n = some g) :
    g.rowStart ≤ g.row ∧ g.row ≤ g.rowEnd ∧ g.laneStart ≤ g.laneEnd := by
  rcases s.pm.fillAfterAbort_cases n with hnone | ⟨f, hf, hsome⟩
  · rw [hnone] at hg
    cases hg
  · rw [hsome] at hg
    cases hg
    obtain ⟨hlow, hhigh, hlanes, -⟩ := h.memory.fill f hf
    exact ⟨hlow, hhigh, hlanes⟩

theorem Inv.fillAbort (h : Inv s) (hready : Ready s) : Inv s.fillAbort.1 := by
  unfold State.fillAbort
  split
  · exact h
  · split
    · exact h
    · exact (h.withFill hready fun g hg => h.fillAfterAbort_within s.free hg).of_core (by simp [SameCore])

/-! ### The window -/

theorem Inv.withWindow (h : Inv s) {w : AccessWindow} (hw : WindowSound w) : Inv { s with window := w } :=
  h.of_butPlay (h.butPlay.withWindow hw) ⟨rfl, rfl, rfl, rfl⟩

/-- The cursor at another place of the walk (R19). -/
theorem WindowSound.withCursor {w : AccessWindow} (h : WindowSound w) {p : Place} (hp : w.eff.Holds p) :
    WindowSound { w with cursor := p } :=
  { h with
    cursorRow := hp.row
    cursorLane := hp.lane
    attributeLane := hp.attributeLane }

theorem WindowSound.ordered {w : AccessWindow} (h : WindowSound w) : w.eff.Ordered := ⟨h.rows, h.lanes⟩

theorem WindowSound.holds {w : AccessWindow} (h : WindowSound w) : w.eff.Holds w.cursor :=
  ⟨h.cursorRow, h.cursorLane, h.attributeLane⟩

theorem Inv.moveCursor (h : Inv s) (n : Nat) : Inv (s.moveCursor n) :=
  (h.withWindow (h.window.withCursor (h.window.holds.after h.window.ordered n))).raiseIf _ _

/-- A window that SET WINDOW accepts is sound with the cursor at its origin (R21, R22). -/
theorem windowSound_inEffect {w : AccessWindow} (hv : w.held.valid = true) :
    WindowSound { w with eff := w.held.inEffect, cursor := w.held.inEffect.origin } := by
  obtain ⟨hstart, hend, hrows, hlanes, hlow, hhigh⟩ := w.held.valid_iff.1 hv
  have hordered : w.held.inEffect.Ordered := by
    refine ⟨?_, hlanes⟩
    rw [Fin.le_def]
    exact (RowNum.ofSum_val hstart).trans_le (hrows.trans_eq (RowNum.ofSum_val hend).symm)
  have horigin := Window.holds_origin hordered
  exact ⟨hordered.rows, hlanes, hlow, hhigh, horigin.row, horigin.lane, horigin.attributeLane⟩

theorem Inv.setWindow (h : Inv s) : Inv s.setWindow.1 := by
  unfold State.setWindow
  split
  · exact h
  · split
    · exact h
    · next hv => exact h.withWindow (windowSound_inEffect (by simpa using hv))

theorem Inv.seek (h : Inv s) : Inv s.seek.1 := by
  unfold State.seek
  split
  · exact h
  · exact h.withWindow (h.window.withCursor (Window.holds_origin h.window.ordered))

/-- A window register write touches neither the window in effect nor the cursor (R20). -/
theorem Inv.writeWindow (h : Inv s) (reg : WindowReg) (value : Word) : Inv (s.writeWindow reg value) := by
  refine h.withWindow ?_
  obtain ⟨_, _, _, _, _, _, _⟩ := h.window
  cases reg <;> constructor <;> assumption

/-! ### Transfers -/

/-- A cell transfer touches 1 to 5 places (R19). -/
theorem triples_length_le (h : WindowSound s.window) (word : Word) : (s.window.triples word).length ≤ 5 := by
  have hcount : s.window.eff.count ≤ 5 := by
    have hcells := h.cellsHigh
    unfold Window.count
    split <;> omega
  rw [triples_eq_filterMap]
  exact (List.length_filterMap_le _ _).trans (by simpa using hcount)

theorem Inv.offer (h : Inv s) (hready : Ready s) {e : Entry} (he : EntrySound e) (n : Nat) : Inv (s.offer e n) := by
  unfold State.offer
  split
  · next ht => exact (h.withQueue hready (queueSound_append h.queue ht he)).moveCursor n
  · exact (h.withQueue hready (queueSound_refuse h.queue)).raise _

theorem Inv.writeData (h : Inv s) (hreset : s.pins.resetLow = false) (word : Word) : Inv (s.writeData word) := by
  unfold State.writeData
  split
  · exact h.raise _
  · next hrefused =>
    have hready : Ready s := ⟨hreset, by
      unfold State.writeRefused at hrefused
      simp_all⟩
    split
    · exact ((h.withRows hready (Memory.wf_writeCells _ h.memory.wf)).raiseIf _ _).moveCursor _
    · exact (h.withRows hready (Memory.wf_writeAttributes _ _ h.memory.wf)).moveCursor _
    · have hlength := triples_length_le h.window word
      unfold State.writeCellsStaged
      dsimp only
      split
      · exact (h.raiseIf _ _).moveCursor _
      · next t ts ht =>
        rw [ht] at hlength
        have hflagged : Ready (s.raiseIf (s.window.hasInvalid word) .codeErr) := by simpa [Ready] using hready
        have hentry : EntrySound (.cells (t :: ts)) := ⟨Nat.succ_pos _, hlength⟩
        exact (h.raiseIf _ _).offer hflagged hentry _
    · have hentry : EntrySound (.attributes s.window.cursor.row (.ofWord word)) := trivial
      exact h.offer hready hentry 1

theorem Inv.answerRead (h : Inv s) (word : Word) : Inv (s.answerRead word) := by
  refine h.of_core ?_
  simp [SameCore]
  exact ⟨rfl, rfl⟩

theorem Inv.readData (h : Inv s) : Inv s.readData := by
  unfold State.readData
  split
  · exact (h.answerRead 0).raise _
  · exact (h.answerRead _).moveCursor _

/-! ### The queue's commands -/

theorem Inv.closeBatch (h : Inv s) (hready : Ready s) : Inv s.closeBatch.1 := by
  unfold State.closeBatch
  split
  · exact h
  · next b hb =>
    split
    · exact (h.withQueue hready (queueSound_dropOpen h.queue)).raise _
    · next hd => exact h.withQueue hready (queueSound_close h.queue hb (by simpa using hd))

theorem Inv.discardBatch (h : Inv s) (hready : Ready s) : Inv s.discardBatch.1 := by
  unfold State.discardBatch
  split
  · exact h
  · exact h.withQueue hready (queueSound_dropOpen h.queue)

theorem Inv.flushQueue (h : Inv s) (hready : Ready s) : Inv s.flushQueue.1 :=
  h.withQueue hready (queueSound_dropOpen (queueSound_dropClosed h.queue))

/-! ### The lane settings -/

/-- A PARK write leaves the lanes of IDLE and ARMED at their park states (R128, R129). -/
theorem Inv.writePark (h : Inv s) (hready : Ready s) (half : Half) (word : Word) : Inv (s.writePark half word) := by
  unfold State.writePark
  split
  · exact h.raise _
  · split
    · next hseq =>
      have hparked := h.lanes.parked hready.1 hseq
      refine h.setLanes ⟨h.lanes.active, fun _ _ => ?_, fun row hrow hrun => ?_⟩
      · ext n
        by_cases hn : halfCovers half n = true <;> simp [LaneUnit.withPark, LaneUnit.parkHalf, LaneUnit.parkStates, hn, hparked]
      · rcases hseq with hseq | hseq <;> simp [hseq, SeqState.running] at hrun
    · next hseq => exact h.setLanes ⟨h.lanes.active, fun _ hrest => absurd hrest hseq, h.lanes.played⟩

theorem Inv.writeTerm (h : Inv s) (half : Half) (word : Word) : Inv (s.writeTerm half word) := by
  unfold State.writeTerm
  split
  · exact h.raise _
  · exact h.setLanes ⟨h.lanes.active, h.lanes.parked, h.lanes.played⟩

theorem Inv.changeUutDrive (h : Inv s) (n : Lane) (d : UutDrive) : Inv (s.changeUutDrive n d) :=
  h.setLanes ⟨h.lanes.active, h.lanes.parked, h.lanes.played⟩

/-- A keeper that took the level its lane is pulled towards is at its pin (R127). -/
theorem keepersFollow_pulled {u : LaneUnit} (h : KeepersFollow u) {n : Lane} {p : Bool} (hpull : u.pull n = some p)
    (hlevel : u.pinLevel n = none) : KeepersFollow { u with keeper := u.keeper.set n p } := by
  intro m b hm
  by_cases hmn : m = n
  · subst hmn
    rw [Lanes.get_set_same]
    have hat : u.pinLevelFrom ((u.keeper.set m p).get m) m = some b := hm
    rw [Lanes.get_set_same] at hat
    unfold LaneUnit.pinLevel LaneUnit.pinLevelFrom at hlevel
    unfold LaneUnit.pinLevelFrom at hat
    cases hd : u.driver m <;> cases hu : uutLevel (u.uut.get m) <;> simp_all
  · have hkeeper : (u.keeper.set n p).get m = u.keeper.get m := Lanes.get_set_other _ _ hmn
    show (u.keeper.set n p).get m = b
    rw [hkeeper]
    refine h m b (Eq.trans ?_ hm)
    show u.pinLevelFrom (u.keeper.get m) m = u.pinLevelFrom ((u.keeper.set n p).get m) m
    rw [hkeeper]

theorem Inv.reachPulledLevel (h : Inv s) (n : Lane) : Inv (s.reachPulledLevel n) := by
  unfold State.reachPulledLevel
  split
  · next hlevel hpull =>
    exact h.of_butPlay (h.butPlay.withLanes ⟨h.lanes.active, h.lanes.parked, h.lanes.played⟩
      (keepersFollow_pulled h.keepers hpull hlevel)) ⟨rfl, rfl, rfl, rfl⟩
  · exact h

/-! ### The compare unit -/

theorem Inv.popLog (h : Inv s) : Inv s.popLog.1 := by
  unfold State.popLog
  split
  · exact h
  · next r rest hlog =>
    obtain ⟨hlength, hordered, hreached, hrecords⟩ := h.log
    rw [hlog] at hlength hordered hreached hrecords
    exact h.of_butPlay (h.butPlay.withCompare ⟨Nat.le_of_succ_le hlength, hordered.of_cons,
      fun q hq => hreached q (List.mem_cons_of_mem _ hq), fun q hq => hrecords q (List.mem_cons_of_mem _ hq)⟩) ⟨rfl, rfl, rfl, rfl⟩

/-- An empty log is in order, whatever the overflow count (R143, R151). -/
theorem logSound_nil (h : s.compare.log = []) : LogSound s :=
  ⟨by simp [h], by simp [h], by simp [h], by simp [h]⟩

theorem Inv.clearLog (h : Inv s) : Inv s.clearLog :=
  h.of_butPlay (h.butPlay.withCompare (c := { s.compare with log := [], overflow := 0 }) (logSound_nil rfl)) ⟨rfl, rfl, rfl, rfl⟩

/-- The mask and the policy are not read. -/
theorem Inv.withCompareSettings (h : Inv s) (mask : Word) (policy : FailPolicy) :
    Inv { s with compare := { s.compare with mask := mask, policy := policy } } :=
  h.of_butPlay (h.butPlay.withCompare (logSound_congr h.log rfl rfl)) ⟨rfl, rfl, rfl, rfl⟩

theorem Inv.writePolicy (h : Inv s) (value : Word) : Inv (s.writePolicy value) := by
  unfold State.writePolicy
  split
  · exact h.withCompareSettings _ _
  · exact h.raise _

/-! ### The registers of the timebase, of run control and of row playback -/

theorem Inv.writeTimebase (h : Inv s) (reg : TimebaseReg) (value : Word) : Inv (s.writeTimebase reg value) := by
  unfold State.writeTimebase
  split
  · next hidle =>
    have hstill : s.timebase.counting = false := by rw [h.timebase.counting, hidle]; rfl
    have hkept : (s.timebase.write reg value).counting = s.timebase.counting ∧
        (s.timebase.write reg value).startHeld = s.timebase.startHeld ∧ (s.timebase.write reg value).stamp = s.timebase.stamp := by
      cases reg <;> exact ⟨rfl, rfl, rfl⟩
    obtain ⟨hcounting, hheld, hstamp⟩ := hkept
    refine h.of_butPlay (h.butPlay.withTimebase ⟨?_, ?_, ?_, ?_⟩ (hstamp ▸ le_rfl)) ⟨rfl, rfl, rfl, rfl⟩
    · exact hcounting.trans h.timebase.counting
    · intro hc
      simp [hcounting, hstill] at hc
    · intro hc
      simp [hcounting, hstill] at hc
    · intro hs
      exact (h.timebase.startHeld (hheld ▸ hs)).imp_left hcounting.trans
  · exact h.raise _

/-- Registers of run control that no clause reads beside the sequencer state of IDLE: the layout and E. -/
theorem Inv.withIdleRun (h : Inv s) (hidle : s.run.seq = .idle) {r : RunControl} (hseq : r.seq = s.run.seq)
    (hrow : r.curRow = s.run.curRow) (hmarks : r.stopMark = s.run.stopMark ∧ r.pendingOffset = s.run.pendingOffset)
    (htarget : r.passCount = s.run.passCount ∧ r.targetInForce = s.run.targetInForce) : Inv { s with run := r } := by
  have hr : r.seq = .idle := hseq.trans hidle
  have hpending : r.pendingOffset = none := hmarks.2.trans (h.marks.pending (by rw [hidle]; rfl))
  refine h.of_butPlay (h.butPlay.withRun hseq ?_ ?_ ?_ ?_) ⟨rfl, hseq, hrow, rfl⟩
  · exact ⟨by simp [hr, SeqState.running], by simp [hpending]⟩
  · exact ⟨fun _ => hmarks.1.trans (h.marks.stop (by rw [hidle]; rfl)), fun _ => hpending⟩
  · obtain ⟨hcount, hforce⟩ := htarget
    exact ⟨by rw [hforce, hcount]; exact h.target.atMost, by simp [hr]⟩
  · exact ⟨by simp [hr], by simp [hr], by simp [hr]⟩

theorem Inv.writeLayout (h : Inv s) (reg : LayoutReg) (value : Word) : Inv (s.writeLayout reg value) := by
  unfold State.writeLayout
  split
  · next hidle => cases reg <;> exact h.withIdleRun hidle rfl rfl ⟨rfl, rfl⟩ ⟨rfl, rfl⟩
  · exact h.raise _

theorem Inv.writeEntryOffset (h : Inv s) (value : Word) : Inv (s.writeEntryOffset value) := by
  have pend (hrun : s.run.seq.running = true) (hv : value.toNat < s.run.loopLen.toNat) :
      Inv { s with run := { s.run with pendingOffset := some value } } := by
    refine h.of_butPlay (h.butPlay.withRun rfl ⟨h.layout.valid, ?_⟩ ⟨h.marks.stop, ?_⟩ ⟨h.target.atMost, h.target.below⟩
      ⟨h.position.head, h.position.loop, h.position.tail⟩) ⟨rfl, rfl, rfl, rfl⟩
    · rintro _ ⟨⟩
      exact hv
    · intro hstill
      exact absurd hrun (by simp [show s.run.seq.running = false from hstill])
  unfold State.writeEntryOffset
  cases hseq : s.run.seq with
  | idle => exact h.withIdleRun hseq rfl rfl ⟨rfl, rfl⟩ ⟨rfl, rfl⟩
  | head | loop | tail =>
    dsimp only
    split
    · next hv => exact pend (by rw [hseq]; rfl) hv
    · exact h.raise _
  | armed | halted => exact h.raise _

theorem Inv.writePassTarget (h : Inv s) (value : Word) : Inv (s.writePassTarget value) := by
  have keep (target force : Word) (htarget : TargetSound { s.run with passTarget := target, targetInForce := force }) :
      Inv { s with run := { s.run with passTarget := target, targetInForce := force } } :=
    h.of_butPlay (h.butPlay.withRun rfl ⟨h.layout.valid, h.layout.pending⟩ ⟨h.marks.stop, h.marks.pending⟩ htarget
      ⟨h.position.head, h.position.loop, h.position.tail⟩) ⟨rfl, rfl, rfl, rfl⟩
  unfold State.writePassTarget
  split
  iterate 3 exact keep value s.run.targetInForce ⟨h.target.atMost, h.target.below⟩
  all_goals
    split
    · next hv =>
      refine keep value value ⟨fun hne => ?_, fun hne _ => ?_⟩
      · exact (hv.resolve_left hne).le
      · exact hv.resolve_left hne
    · exact h.raise _

theorem Inv.writeRunConfig (h : Inv s) (value : Word) : Inv (s.writeRunConfig value) :=
  h.of_butPlay (h.butPlay.withRun rfl ⟨h.layout.valid, h.layout.pending⟩ ⟨h.marks.stop, h.marks.pending⟩
    ⟨h.target.atMost, h.target.below⟩ ⟨h.position.head, h.position.loop, h.position.tail⟩) ⟨rfl, rfl, rfl, rfl⟩

theorem Inv.writeStrobe (h : Inv s) (value : Word) : Inv (s.writeStrobe value) := by
  unfold State.writeStrobe
  split
  · next hv =>
    exact (inv_iff _).2 ⟨h.butPlay.withPlay rfl,
      { h.play with
        noTimeout := h.play.noTimeout
        strobeLow := hv.2.1
        strobeHigh := hv.2.2 }⟩
  · exact h.raise _

theorem Inv.writeWaitLimit (h : Inv s) (value : Word) : Inv (s.writeWaitLimit value) := by
  unfold State.writeWaitLimit
  split
  · next hidle =>
    exact (inv_iff _).2 ⟨h.butPlay.withPlay rfl,
      { h.play with noTimeout := by simp [State.timeoutDue, hidle, SeqState.running] }⟩
  · exact h.raise _

/-- The cycles left of a pulse are not read. -/
theorem Inv.withPulses (h : Inv s) (passmark mark : Nat) :
    Inv { s with run := { s.run with passmarkCycles := passmark }, play := { s.play with markCycles := mark } } := by
  have hrun : InvButPlay { s with run := { s.run with passmarkCycles := passmark } } :=
    h.butPlay.withRun rfl ⟨h.layout.valid, h.layout.pending⟩ ⟨h.marks.stop, h.marks.pending⟩
      ⟨h.target.atMost, h.target.below⟩ ⟨h.position.head, h.position.loop, h.position.tail⟩
  exact (inv_iff _).2 ⟨hrun.withPlay rfl, { h.play with noTimeout := h.play.noTimeout }⟩

end Sys2Proof
end

section
/-! The moves of run control keep the invariant: a latch, the ends of the regions, the run start, and the ways out of a run
(chapters 5 and 6). -/

namespace Sys2Proof

open Machine

variable {s t : Machine.State}

/-! ### What run control's moves leave alone -/

/-- The clauses that look at neither the sequencer state nor the latched row, of a part that is ready. -/
structure RunBase (s : Machine.State) : Prop where
  ready : Ready s
  wf : s.pm.rows.wf = true
  fill : ∀ f, s.pm.fill = some f → f.rowStart ≤ f.row ∧ f.row ≤ f.rowEnd ∧ f.laneStart ≤ f.laneEnd
  commits : ∀ n ∈ s.pm.commits, 1 ≤ n
  window : WindowSound s.window
  queue : QueueSound s.queue
  active : s.lanes.active = true
  strobeLow : 1 ≤ s.play.strobe.toNat
  strobeHigh : s.play.strobe.toNat ≤ 256
  log : LogSound s
  bus : BusSound s

/-- What `RunBase` reads beside pattern memory and the queue. -/
def SameBase (s t : Machine.State) : Prop :=
  t.window = s.window ∧ t.lanes.active = s.lanes.active ∧ t.play.strobe = s.play.strobe ∧ t.compare = s.compare ∧
    t.timebase.stamp = s.timebase.stamp ∧ t.bus = s.bus ∧ t.pins = s.pins ∧ t.pm.sweep = s.pm.sweep ∧ t.pm.fill = s.pm.fill

theorem RunBase.of_same (h : RunBase s) (hsame : SameBase s t) (hwf : t.pm.rows.wf = true) (hcommits : ∀ n ∈ t.pm.commits, 1 ≤ n)
    (hqueue : QueueSound t.queue) : RunBase t := by
  obtain ⟨hwindow, hactive, hstrobe, hcompare, hstamp, hbus, hpins, hsweep, hfill⟩ := hsame
  exact {
    ready := ⟨by rw [hpins]; exact h.ready.1, hsweep.trans h.ready.2⟩
    wf := hwf
    fill := hfill ▸ h.fill
    commits := hcommits
    window := hwindow ▸ h.window
    queue := hqueue
    active := hactive.trans h.active
    strobeLow := hstrobe ▸ h.strobeLow
    strobeHigh := hstrobe ▸ h.strobeHigh
    log := logSound_congr h.log (by rw [hcompare]) hstamp
    bus := busSound_congr h.bus (by rw [hbus]) (by rw [hbus]) (by rw [hpins]) }

/-- An operation that leaves pattern memory and the queue too. -/
theorem RunBase.of_frame (h : RunBase s) (hsame : SameBase s t) (hpm : t.pm = s.pm) (hqueue : t.queue = s.queue) : RunBase t :=
  h.of_same hsame (hpm ▸ h.wf) (hpm ▸ h.commits) (hqueue ▸ h.queue)

theorem RunBase.memory (h : RunBase s) : MemorySound s := .of_ready h.ready h.wf h.fill h.commits

/-- The applications in progress after a commit: those before it, and one more of at least a cycle if a batch was waiting (R64). -/
theorem Machine.State.commitPoint_commits (s : Machine.State) :
    s.commitPoint.pm.commits = s.pm.commits ∨ ∃ n, 1 ≤ n ∧ s.commitPoint.pm.commits = s.pm.commits ++ [n] := by
  by_cases hclosed : s.queue.closed = []
  · exact .inl (by rw [s.commitPoint_nil hclosed])
  · exact .inr ⟨_, Nat.succ_pos _, (s.commitPoint_cons hclosed).2.1⟩

theorem commitPoint_commits_pos (h : ∀ n ∈ s.pm.commits, 1 ≤ n) : ∀ n ∈ s.commitPoint.pm.commits, 1 ≤ n := by
  rcases s.commitPoint_commits with hsame | ⟨n, hn, hmore⟩
  · rwa [hsame]
  · rw [hmore]
    intro m hm
    rcases List.mem_append.1 hm with hm | hm
    · exact h m hm
    · exact List.mem_singleton.1 hm ▸ hn

theorem commitPoint_commits_ne_nil (h : s.pm.commits ≠ []) : s.commitPoint.pm.commits ≠ [] := by
  rcases s.commitPoint_commits with hsame | ⟨n, -, hmore⟩
  · rwa [hsame]
  · rw [hmore]
    exact List.append_ne_nil_of_left_ne_nil h _

theorem RunBase.commitPoint (h : RunBase s) : RunBase s.commitPoint :=
  h.of_same (by simp [SameBase]) (s.commitPoint_wf h.wf) (commitPoint_commits_pos h.commits) (commitPoint_queueSound h.queue)

/-- The part is ready: what the invariant says of it apart from its run. -/
theorem InvButPlay.runBase (h : InvButPlay s) (hready : Ready s) (hlow : 1 ≤ s.play.strobe.toNat)
    (hhigh : s.play.strobe.toNat ≤ 256) : RunBase s where
  ready := hready
  wf := h.memory.wf
  fill f hf := by
    obtain ⟨hrow, hend, hlanes, -⟩ := h.memory.fill f hf
    exact ⟨hrow, hend, hlanes⟩
  commits := h.memory.commits
  window := h.window
  queue := h.queue
  active := by rw [h.lanes.active, hready.1]; rfl
  strobeLow := hlow
  strobeHigh := hhigh
  log := h.log
  bus := h.bus

theorem Inv.runBase (h : Inv s) (hready : Ready s) : RunBase s :=
  h.butPlay.runBase hready h.play.strobeLow h.play.strobeHigh

/-! ### At rest: IDLE and ARMED -/

/-- No row is latched and the counts of the row are 0 (R121, R122). -/
def NoRow (p : Playback) : Prop := p.latched = none ∧ p.phase = .dwell ∧ p.tickInRow = 0 ∧ p.waitCount = 0

/-- IDLE or ARMED with the lanes parked, the timebase stopped, no mark and no row. -/
theorem RunBase.atRest (h : RunBase s) (hseq : s.run.seq = .idle ∨ s.run.seq = .armed)
    (hstopped : s.timebase.counting = false ∧ s.timebase.startHeld = false)
    (hlayout : s.run.seq = .armed → s.run.layoutValid = true) (hmarks : s.run.stopMark = false ∧ s.run.pendingOffset = none)
    (htarget : s.run.targetInForce ≠ 0 → s.run.passCount.toNat ≤ s.run.targetInForce.toNat) (hrow : NoRow s.play)
    (hparked : s.lanes.effective = s.lanes.parkStates) (hkeepers : KeepersFollow s.lanes) : Inv s := by
  obtain ⟨hcounting, hheld⟩ := hstopped
  obtain ⟨hstop, hpending⟩ := hmarks
  obtain ⟨hnone, hphase, htick, hwait⟩ := hrow
  have hstill : s.run.seq.running = false := by rcases hseq with hseq | hseq <;> rw [hseq] <;> rfl
  have hhalted : (s.run.seq == .halted) = false := by rcases hseq with hseq | hseq <;> rw [hseq] <;> rfl
  exact {
    memory := h.memory
    window := h.window
    queue := h.queue
    timebase := ⟨hcounting.trans hstill.symm, by simp [hcounting], by simp [hcounting], by simp [hheld]⟩
    layout := ⟨fun hlocked => hlayout (hlocked.resolve_right (by simp [hstill])), by simp [hpending]⟩
    marks := ⟨fun _ => hstop, fun _ => hpending⟩
    target := ⟨htarget, fun _ hrun => by rcases hseq with hseq | hseq <;> simp [hseq] at hrun⟩
    position := by rcases hseq with hseq | hseq <;> exact ⟨by simp [hseq], by simp [hseq], by simp [hseq]⟩
    play := ⟨by simp [hnone, hstill, hhalted], by simp [hnone], fun _ => ⟨hphase, htick, hwait⟩, by simp [hnone],
      by simp [hnone], by simp [State.timeoutDue, hstill], h.strobeLow, h.strobeHigh⟩
    lanes := ⟨by rw [h.active, h.ready.1]; rfl, fun _ _ => hparked, by simp [hnone]⟩
    keepers := hkeepers
    log := h.log
    bus := h.bus }

/-- What ends or aborts a run leaves IDLE at rest (R91, R95). -/
theorem RunBase.toIdle (h : RunBase s)
    (htarget : s.run.targetInForce ≠ 0 → s.run.passCount.toNat ≤ s.run.targetInForce.toNat) : Inv s.toIdle := by
  have hbase : RunBase s.toIdle := h.of_frame (by simp [SameBase, Timebase.stop]) (by simp) (by simp)
  refine hbase.atRest (by simp) (by simp [Timebase.stop]) (by simp) (by simp) (by simpa using htarget) (by simp [NoRow]) (by simp) ?_
  have hlanes : s.toIdle.lanes =
      ({ s with run := { s.run with seq := .idle, stopMark := false, pendingOffset := none } } : Machine.State).parkLanes.lanes := by
    simp [State.toIdle]
  rw [hlanes]
  exact State.setLanes_keepersFollow _ _

/-- Outside HEAD, LOOP, TAIL and HALTED no row is latched (R103). -/
theorem PlaySound.noRow (h : PlaySound s) (hseq : s.run.seq = .idle ∨ s.run.seq = .armed) : NoRow s.play := by
  have hlatched : s.play.latched.isSome = false := by
    rcases hseq with hseq | hseq <;> exact h.latched.trans (by rw [hseq]; rfl)
  have hnone : s.play.latched = none := by simpa using hlatched
  obtain ⟨hphase, htick, hwait⟩ := h.unlatched hnone
  exact ⟨hnone, hphase, htick, hwait⟩

/-- Between IDLE and ARMED with a park request: ARM and STOP (R83, R92). -/
theorem Inv.park (h : Inv s) (hready : Ready s) (hseq : s.run.seq = .idle ∨ s.run.seq = .armed) {q : SeqState}
    (hq : q = .idle ∨ q = .armed) (hlayout : q = .armed → s.run.layoutValid = true) :
    Inv ({ s with run := { s.run with seq := q } } : Machine.State).parkLanes := by
  have hstill : s.run.seq.running = false := by rcases hseq with hseq | hseq <;> rw [hseq] <;> rfl
  have hcounting : s.timebase.counting = false := h.timebase.counting.trans hstill
  have hheld : s.timebase.startHeld = false := by
    by_contra hheld
    have := (h.timebase.startHeld (by simpa using hheld)).1
    simp [hcounting] at this
  have hbase : RunBase ({ s with run := { s.run with seq := q } } : Machine.State).parkLanes :=
    (h.runBase hready).of_frame (by simp [SameBase]) (by simp) (by simp)
  refine hbase.atRest (by simpa using hq) (by simp [hcounting, hheld]) (fun harmed => ?_)
    (by simp [h.marks.stop hstill, h.marks.pending hstill]) (by simpa using h.target.atMost) (by simpa using h.play.noRow hseq)
    (by simp) (State.setLanes_keepersFollow _ _)
  rw [(State.parkLanes_frame _).2.2.2.2.1] at harmed ⊢
  exact hlayout harmed

/-! ### Between two rows -/

/-- A run that has taken a row end, or a run start, and not yet latched the next row. -/
structure MovingOn (s : Machine.State) : Prop where
  base : RunBase s
  running : s.run.seq.running = true
  timebase : TimebaseSound s
  layout : LayoutSound s.run
  target : s.run.targetInForce ≠ 0 → s.run.passCount.toNat ≤ s.run.targetInForce.toNat

/-- The pass count is below the target in force, so that the loop may go on (R89). -/
def BelowTarget (r : RunControl) : Prop := r.targetInForce ≠ 0 → r.passCount.toNat < r.targetInForce.toNat

/-- The next row latched is the invariant again, if it lies in its region (R86, R104). -/
theorem MovingOn.latchRow (h : MovingOn s) (hbelow : s.run.seq = .head ∨ s.run.seq = .loop → BelowTarget s.run) {r : RowNum}
    (hposition : PositionSound { s.run with curRow := r }) (v : Lanes LaneState) : Inv (s.latchRow r v) := by
  have hbase : RunBase (s.latchRow r v) := h.base.of_frame (by simp [SameBase]) (by simp) (by simp)
  have hrest : ¬ ((s.latchRow r v).run.seq = .idle ∨ (s.latchRow r v).run.seq = .armed) := by
    have hrun := h.running
    rw [State.latchRow_run]
    rintro (hseq | hseq) <;> simp [show s.run.seq = _ from hseq, SeqState.running] at hrun
  exact {
    memory := hbase.memory
    window := hbase.window
    queue := hbase.queue
    timebase := timebaseSound_congr h.timebase (by simp) (by simp) (by simp)
    layout := by rw [State.latchRow_run]; exact ⟨h.layout.valid, h.layout.pending⟩
    marks := by rw [State.latchRow_run]; exact ⟨by simp [h.running], by simp [h.running]⟩
    target := by rw [State.latchRow_run]; exact ⟨h.target, fun hne hseq => hbelow hseq hne⟩
    position := by rw [State.latchRow_run]; exact hposition
    play := {
      latched := by simp [h.running]
      row := by simp
      unlatched := by simp
      waits := by simp
      notEnded := by simp [dwellOf]
      noTimeout := by
        simp only [State.timeoutDue, State.latchRow_play, Bool.and_eq_false_iff, bne_eq_false_iff_eq, beq_eq_false_iff_ne]
        by_cases hlimit : s.play.waitLimit = 0
        · exact .inl (.inl (.inr hlimit))
        · exact .inl (.inr (Ne.symm hlimit))
      strobeLow := hbase.strobeLow
      strobeHigh := hbase.strobeHigh }
    lanes := ⟨by rw [hbase.active, hbase.ready.1]; rfl,
      fun _ hseq => absurd hseq hrest, by simp⟩
    keepers := s.latchRow_keepersFollow r v
    log := hbase.log
    bus := hbase.bus }

/-- A move from one region of a run to another leaves the timebase counting (R67). -/
theorem MovingOn.timebase_of (h : MovingOn s) (htimebase : t.timebase = s.timebase) (hrun : t.run.seq.running = true)
    (hcommits : s.pm.commits ≠ [] → t.pm.commits ≠ []) : TimebaseSound t where
  counting := by rw [htimebase, h.timebase.counting, h.running, hrun]
  prescaleCount := by rw [htimebase]; exact h.timebase.prescaleCount
  periodCount := by rw [htimebase]; exact h.timebase.periodCount
  startHeld := by
    rw [htimebase]
    exact fun hheld => (h.timebase.startHeld hheld).imp_right hcommits

theorem MovingOn.layoutValid (h : MovingOn s) : ValidLayout s.run := s.run.layoutValid_iff.1 (h.layout.valid (.inr h.running))

/-- Run control's registers changed within the run. -/
theorem MovingOn.withRun (h : MovingOn s) {r : RunControl} (hrun : r.seq.running = true) (hvalid : r.layoutValid = true)
    (hpending : ∀ e, r.pendingOffset = some e → e.toNat < r.loopLen.toNat)
    (htarget : r.targetInForce ≠ 0 → r.passCount.toNat ≤ r.targetInForce.toNat) : MovingOn { s with run := r } where
  base := h.base.of_frame (by simp [SameBase]) rfl rfl
  running := hrun
  timebase := h.timebase_of rfl hrun id
  layout := ⟨fun _ => hvalid, hpending⟩
  target := htarget

theorem MovingOn.commitPoint (h : MovingOn s) : MovingOn s.commitPoint where
  base := h.base.commitPoint
  running := by simpa using h.running
  timebase := h.timebase_of (by simp) (by simpa using h.running) commitPoint_commits_ne_nil
  layout := by simpa using h.layout
  target := by simpa using h.target

theorem MovingOn.raise (h : MovingOn s) (e : Event) : MovingOn (s.raise e) where
  base := h.base.of_frame (by simp [SameBase]) (by simp) (by simp)
  running := by simpa using h.running
  timebase := h.timebase_of (by simp) (by simpa using h.running) (by simp)
  layout := by simpa using h.layout
  target := by simpa using h.target

/-- The first tail row, or the end of the run (R87, R88, R91). -/
theorem MovingOn.enterTail (h : MovingOn s) : Inv s.enterTail := by
  unfold State.enterTail
  split
  · next htail =>
    obtain ⟨-, hend, -⟩ := h.layoutValid
    have htailed : MovingOn { s with run := { s.run with seq := .tail } } :=
      h.withRun rfl (h.layout.valid (.inr h.running)) h.layout.pending h.target
    refine htailed.latchRow (by simp) ⟨nofun, nofun, fun _ => ?_⟩ _
    have hrow := RowNum.val_ofSum (n := s.run.tailStart) (by simp only [RunControl.tailStart, RunControl.loopStart]; omega)
    simp only [RunControl.tailStart, RunControl.layoutEnd, RunControl.loopStart] at hrow ⊢
    omega
  · exact (h.base.toIdle h.target).raise .done

/-- Loop row E, the first row of a pass (R87, R88). -/
theorem MovingOn.beginPass (h : MovingOn s) (hbelow : BelowTarget s.run) (v : Lanes LaneState) :
    Inv ((s.enter .loop).latchRow (RowNum.ofSum (s.run.loopStart + s.run.entryOffset.toNat)) v) := by
  obtain ⟨hloop, hend, hoffset⟩ := h.layoutValid
  have hentered : MovingOn (s.enter .loop) := h.withRun rfl (h.layout.valid (.inr h.running)) h.layout.pending h.target
  refine hentered.latchRow (fun _ => hbelow) ⟨nofun, fun _ => ⟨hloop, ?_⟩, nofun⟩ v
  have hrow := RowNum.val_ofSum (n := s.run.loopStart + s.run.entryOffset.toNat) (by simp only [RunControl.loopStart]; omega)
  simp only [State.enter_run, RunControl.loopStart, Nat.add_zero, Nat.mod_eq_of_lt hoffset] at hrow ⊢
  exact hrow

/-! ### The run start -/

/-- A run start up to its commit: the log emptied, the counts, target and marks set, the timebase started (R81). -/
def Machine.State.beforeCommit (s : Machine.State) : Machine.State :=
  ({ s.clearLog with run := { s.run with
    passCount := 0, targetInForce := s.run.passTarget, stopMark := false, pendingOffset := none } }).startTimebase

@[simp] theorem Machine.State.beforeCommit_frame (s : Machine.State) :
    s.beforeCommit.pm = s.pm ∧ s.beforeCommit.window = s.window ∧ s.beforeCommit.queue = s.queue ∧ s.beforeCommit.play = s.play ∧
      s.beforeCommit.lanes = s.lanes ∧ s.beforeCommit.events = s.events ∧ s.beforeCommit.bus = s.bus ∧
      s.beforeCommit.pins = s.pins ∧ s.beforeCommit.free = s.free ∧ s.beforeCommit.pending = s.pending :=
  ⟨rfl, rfl, rfl, rfl, rfl, rfl, rfl, rfl, rfl, rfl⟩

/-- A run start before its first latch is the commit, and the wait of the latch for applications in progress (R65, R81). -/
theorem Machine.State.prepareRun_eq (s : Machine.State) : s.prepareRun = { s.beforeCommit.commitPoint with
    timebase := { s.timebase.start with startHeld := !s.beforeCommit.commitPoint.pm.commits.isEmpty } } := by
  have htimebase : s.beforeCommit.commitPoint.timebase = s.timebase.start := by simp [State.beforeCommit]
  rw [← htimebase]
  rfl

/-- A run start latches its first row in HEAD, or with an empty head in LOOP (R81). -/
theorem Inv.runStart (h : Inv s) (hready : Ready s) (hvalid : s.run.layoutValid = true) : Inv s.runStart := by
  have hbase : RunBase s.prepareRun :=
    { (h.runBase hready) with
      ready := by simpa [Ready] using hready
      wf := by rw [s.prepareRun_eq]; exact s.beforeCommit.commitPoint_wf h.memory.wf
      fill := by simpa using (h.runBase hready).fill
      commits := by rw [s.prepareRun_eq]; exact commitPoint_commits_pos (s := s.beforeCommit) h.memory.commits
      window := by simpa using h.window
      queue := commitPoint_queueSound h.queue
      active := by simpa using (h.runBase hready).active
      strobeLow := by simpa using h.play.strobeLow
      strobeHigh := by simpa using h.play.strobeHigh
      log := logSound_nil (by simp [State.prepareRun])
      bus := busSound_congr h.bus (by simp) (by simp) (by simp) }
  have hrun : s.prepareRun.run = { s.run with
      passCount := 0, targetInForce := s.run.passTarget, stopMark := false, pendingOffset := none } := by simp [State.prepareRun]
  have htimebase : s.prepareRun.timebase = { s.timebase.start with startHeld := !s.prepareRun.pm.commits.isEmpty } := by
    simp [State.prepareRun]
  have hbelow : BelowTarget s.prepareRun.run := by
    intro hne
    rw [hrun] at hne ⊢
    exact Nat.pos_of_ne_zero fun hzero => hne (BitVec.eq_of_toNat_eq hzero)
  have entered (q : SeqState) (hq : q.running = true) : MovingOn (s.prepareRun.enter q) := {
    base := hbase.of_frame (by simp [SameBase]) (by simp) (by simp)
    running := hq
    timebase := {
      counting := by simp [htimebase, Timebase.start, hq]
      prescaleCount := by simp [htimebase, Timebase.start, Timebase.division]
      periodCount := by simp [htimebase, Timebase.start, Timebase.periodLength]
      startHeld := by simp [htimebase, Timebase.start] }
    layout := ⟨fun _ => by rw [State.enter_run, hrun]; exact hvalid, by simp [hrun]⟩
    target := fun hne => (hbelow hne).le }
  obtain ⟨hloop, hend, hoffset⟩ := s.run.layoutValid_iff.1 hvalid
  unfold State.runStart
  dsimp only
  split
  · next hhead =>
    refine (entered .head rfl).latchRow (fun _ => hbelow) ⟨fun _ => ?_, nofun, nofun⟩ _
    rw [hrun] at hhead
    have hrow := RowNum.val_ofSum (n := s.run.base.toNat) (by omega)
    simp only [State.enter_run, hrun, RunControl.loopStart] at hrow hhead ⊢
    omega
  · exact (entered .loop rfl).beginPass hbelow _

/-! ### Row ends -/

/-- One more row of a pass in the pass order: the count goes round the loop (R78). -/
theorem succ_mod_eq {a l : Nat} (hl : 0 < l) : (a + 1) % l = if a % l + 1 < l then a % l + 1 else 0 := by
  have hlt := Nat.mod_lt a hl
  rw [Nat.add_mod]
  split
  · next h =>
    have hone : 1 % l = 1 := Nat.mod_eq_of_lt (by omega)
    rw [hone, Nat.mod_eq_of_lt h]
  · next h =>
    rcases Nat.lt_or_ge 1 l with hbig | hsmall
    · rw [Nat.mod_eq_of_lt hbig, show a % l + 1 = l by omega, Nat.mod_self]
    · rw [show l = 1 by omega, Nat.mod_one]

/-- The next loop row is the row of one more ended row of the pass (R78). -/
theorem nextLoopRow_eq {r : RunControl} (h : PositionSound r) (hseq : r.seq = .loop) :
    r.nextLoopRow = r.loopStart + (r.entryOffset.toNat + (r.passRows + 1)) % r.loopLen.toNat := by
  obtain ⟨hrows, hrow⟩ := h.loop hseq
  have hindex : r.curRow.val - r.loopStart = (r.entryOffset.toNat + r.passRows) % r.loopLen.toNat := by omega
  unfold RunControl.nextLoopRow
  dsimp only
  rw [hindex, ← Nat.add_assoc, succ_mod_eq (by omega)]

/-- The pass count advances past no target in force (R89). -/
theorem countPass_le {r : RunControl} (h : BelowTarget r) : r.countPass.targetInForce ≠ 0 →
    r.countPass.passCount.toNat ≤ r.countPass.targetInForce.toNat := by
  intro hne
  have hlt := h hne
  unfold RunControl.countPass
  dsimp only
  split
  · exact hlt.le
  · have hbound := r.targetInForce.isLt
    rw [BitVec.toNat_add]
    exact (Nat.mod_le _ _).trans hlt

theorem MovingOn.headEnd (h : MovingOn s) (hbelow : BelowTarget s.run) : Inv s.headEnd := by
  unfold State.headEnd
  split
  · exact h.enterTail
  · exact h.commitPoint.beginPass (by simpa using hbelow) _

/-- A pending offset becomes E and keeps the layout valid (R77, R88). -/
theorem applyOffset_sound {r : RunControl} (hvalid : r.layoutValid = true)
    (hpending : ∀ e, r.pendingOffset = some e → e.toNat < r.loopLen.toNat) :
    r.applyOffset.layoutValid = true ∧ r.applyOffset.pendingOffset = none := by
  unfold RunControl.applyOffset
  cases he : r.pendingOffset with
  | none => exact ⟨hvalid, he⟩
  | some e =>
    have hoffset := hpending e he
    rw [RunControl.layoutValid_iff] at hvalid ⊢
    exact ⟨⟨hvalid.1, hvalid.2.1, hoffset⟩, rfl⟩

@[simp] theorem Machine.RunControl.applyOffset_fields (r : RunControl) :
    r.applyOffset.seq = r.seq ∧ r.applyOffset.passCount = r.passCount ∧ r.applyOffset.targetInForce = r.targetInForce ∧
      r.applyOffset.loopLen = r.loopLen ∧ r.applyOffset.stopMark = r.stopMark := by
  unfold RunControl.applyOffset
  split <;> exact ⟨rfl, rfl, rfl, rfl, rfl⟩

theorem MovingOn.boundary (h : MovingOn s) (hbelow : BelowTarget s.run) : MovingOn s.boundary := by
  have hcounted : MovingOn { s with run := { s.run.countPass with passmarkCycles := 2 } } :=
    h.withRun h.running (h.layout.valid (.inr h.running)) h.layout.pending (countPass_le hbelow)
  obtain ⟨hvalid, hnone⟩ := applyOffset_sound (r := { s.run.countPass with passmarkCycles := 2 })
    (h.layout.valid (.inr h.running)) h.layout.pending
  have hset := (hcounted.raise .pass).withRun (r := RunControl.applyOffset { s.run.countPass with passmarkCycles := 2 })
    (by simpa using hcounted.running) hvalid (by simp [hnone]) (by simpa using hcounted.target)
  exact hset.commitPoint

theorem MovingOn.passBoundary (h : MovingOn s) (hbelow : BelowTarget s.run) : Inv s.passBoundary := by
  have hb := h.boundary hbelow
  unfold State.passBoundary
  dsimp only
  split
  · exact hb.enterTail
  · next hends =>
    refine hb.beginPass (fun hne => lt_of_le_of_ne (hb.target hne) fun heq => hends ?_) _
    have hmet : s.boundary.run.passCount = s.boundary.run.targetInForce := BitVec.eq_of_toNat_eq heq
    rw [RunControl.loopEnds, hmet]
    simp [show s.boundary.run.targetInForce ≠ 0#16 from hne]

/-- Run control's answer to a row end latches a row of its region or ends the run (R86, R111). -/
theorem MovingOn.answerRowEnd (h : MovingOn s) (hposition : PositionSound s.run) (htarget : TargetSound s.run) :
    Inv s.answerRowEnd := by
  obtain ⟨hloop, hend, hoffset⟩ := h.layoutValid
  have hbelow (hseq : s.run.seq = .head ∨ s.run.seq = .loop) : BelowTarget s.run := fun hne => htarget.below hne hseq
  unfold State.answerRowEnd
  cases hseq : s.run.seq with
  | head =>
    obtain ⟨hlow, -⟩ := hposition.head hseq
    dsimp only
    split
    · next hmore =>
      refine h.latchRow hbelow ⟨fun _ => ?_, by simp [hseq], by simp [hseq]⟩ _
      have hrow := RowNum.val_ofSum (n := s.run.curRow.val + 1) (by simp only [RunControl.loopStart] at hmore; omega)
      simp only [RunControl.loopStart] at hmore ⊢
      omega
    · exact h.headEnd (hbelow (.inl hseq))
  | loop =>
    dsimp only
    split
    · next hmore =>
      have hcounted : MovingOn { s with run := { s.run with passRows := s.run.passRows + 1 } } :=
        h.withRun h.running (h.layout.valid (.inr h.running)) h.layout.pending h.target
      refine hcounted.latchRow hbelow ⟨by simp [hseq], fun _ => ⟨hmore, ?_⟩, by simp [hseq]⟩ _
      have hmod := Nat.mod_lt (s.run.entryOffset.toNat + (s.run.passRows + 1)) hloop
      have hrow := RowNum.val_ofSum (n := s.run.nextLoopRow) (by
        rw [nextLoopRow_eq hposition hseq, RunControl.loopStart]; omega)
      exact hrow.trans (nextLoopRow_eq hposition hseq)
    · exact h.passBoundary (hbelow (.inr hseq))
  | tail =>
    obtain ⟨hlow, -⟩ := hposition.tail hseq
    dsimp only
    split
    · next hmore =>
      refine h.latchRow (by simp [hseq]) ⟨by simp [hseq], by simp [hseq], fun _ => ?_⟩ _
      have hrow := RowNum.val_ofSum (n := s.run.curRow.val + 1) (by
        simp only [RunControl.layoutEnd, RunControl.tailStart, RunControl.loopStart] at hmore; omega)
      simp only [RunControl.layoutEnd, RunControl.tailStart, RunControl.loopStart] at hmore hlow ⊢
      omega
    · exact (h.base.toIdle h.target).raise .done
  | idle | armed | halted =>
    have hrun := h.running
    rw [hseq] at hrun
    cases hrun

end Sys2Proof
end

section
/-! A tick's event keeps the invariant: inside it the row may stand at its dwell or at its wait limit, until the timeout and the row end
that the tick brings (chapters 6 and 8). -/

namespace Sys2Proof

open Machine

variable {s t : Machine.State}

/-! ### Inside a tick's event -/

/-- Row playback inside a tick's event: as between events, but for a row that may have reached its dwell or its wait limit. -/
structure TickingPlay (s : Machine.State) : Prop where
  latched : s.play.latched.isSome = (s.run.seq.running || s.run.seq == .halted)
  row : ∀ row, s.play.latched = some row → row.row = s.run.curRow
  unlatched : s.play.latched = none → s.play.phase = .dwell ∧ s.play.tickInRow = 0 ∧ s.play.waitCount = 0
  waits : ∀ row, s.play.latched = some row → s.play.phase = .waiting → row.wait = true
  reached : ∀ row, s.play.latched = some row → s.run.seq.running = true →
    s.play.tickInRow ≤ dwellOf row.dwellLess1 ∧ (s.play.phase = .waiting → s.play.tickInRow < dwellOf row.dwellLess1)
  strobeLow : 1 ≤ s.play.strobe.toNat
  strobeHigh : s.play.strobe.toNat ≤ 256

/-- The invariant inside a tick's event: the stamp has advanced, and row playback is at its tick. -/
structure Ticking (s : Machine.State) : Prop where
  butPlay : InvButPlay s
  play : TickingPlay s
  stamp : 1 ≤ s.timebase.stamp.toNat

theorem PlaySound.ticking (h : PlaySound s) : TickingPlay s :=
  ⟨h.latched, h.row, h.unlatched, h.waits,
    fun row hrow hrun => ⟨(h.notEnded row hrow hrun).le, fun _ => h.notEnded row hrow hrun⟩, h.strobeLow, h.strobeHigh⟩

/-- A tick that leaves neither a timeout nor a row end due is over. -/
theorem Ticking.inv (h : Ticking s) (htimeout : s.timeoutDue = false) (hend : s.rowEndDue = false) : Inv s := by
  refine (inv_iff s).2 ⟨h.butPlay, h.play.latched, h.play.row, h.play.unlatched, h.play.waits, fun row hrow hrun => ?_, htimeout,
    h.play.strobeLow, h.play.strobeHigh⟩
  obtain ⟨hle, hwaiting⟩ := h.play.reached row hrow hrun
  cases hphase : s.play.phase with
  | waiting => exact hwaiting hphase
  | dwell =>
    have hne : s.run.seq ≠ .idle := by rintro hidle; simp [hidle, SeqState.running] at hrun
    have hreset := (h.butPlay.memory.ready hne).1
    refine lt_of_le_of_ne hle fun heq => ?_
    simp [State.rowEndDue, hrow, hreset, hrun, hphase, heq] at hend

theorem TickingPlay.congr (h : TickingPlay s) (hsame : SamePlay s t) : TickingPlay t := by
  obtain ⟨hplay, hseq, hrow, -⟩ := hsame
  obtain ⟨_, _, _, _, _, _, _⟩ := h
  constructor <;> simp only [hplay, hseq, hrow] <;> assumption

theorem Ticking.of_core (h : Ticking s) (hcore : SameCore s t) : Ticking t :=
  ⟨h.butPlay.of_core hcore, h.play.congr hcore.samePlay, by rw [hcore.2.2.2.1]; exact h.stamp⟩

theorem Ticking.runBase (h : Ticking s) (hrun : s.run.seq.running = true) : RunBase s := by
  refine h.butPlay.runBase (h.butPlay.memory.ready ?_) h.play.strobeLow h.play.strobeHigh
  rintro hidle
  simp [hidle, SeqState.running] at hrun

/-! ### Fails -/

/-- A record that a tick makes in a region of a run is well formed (R142). -/
theorem recordSound_failRecord (hstamp : 1 ≤ s.timebase.stamp.toNat) {failing : Lanes Bool} (hfailing : failing.any = true)
    (kind : FailKind) (region : Region) (row : RowNum) : RecordSound (s.failRecord kind region row failing) where
  failing := hfailing
  stamp := hstamp
  pass := by cases region <;> rfl
  passLow p hp := by
    unfold State.failRecord at hp
    dsimp only at hp
    split at hp
    · obtain rfl := Option.some.inj hp
      unfold RunControl.passInProgress
      split
      · next hmax => rw [hmax]; decide
      · next hmax =>
        have hlt := s.run.passCount.isLt
        have hne : s.run.passCount.toNat ≠ 65535 := fun heq => hmax (BitVec.eq_of_toNat_eq heq)
        rw [BitVec.toNat_add]
        exact Nat.le_of_lt_succ (by simp; omega)
    · cases hp

/-- A record with the present stamp joins the log in order, or is dropped (R143, R144). -/
theorem logSound_logFail (h : LogSound s) {r : FailRecord} (hr : RecordSound r) (hstamp : r.stamp = s.timebase.stamp) :
    LogSound (s.logFail r) := by
  unfold State.logFail
  split
  · next hroom =>
    refine logSound_congr (s := { s with compare := { s.compare with log := s.compare.log ++ [r] } }) ⟨?_, ?_, ?_, ?_⟩
      (by simp) (by simp)
    · simpa using hroom
    · refine List.pairwise_append.2 ⟨h.ordered, List.pairwise_singleton _ _, fun a ha b hb => ?_⟩
      rw [List.mem_singleton.1 hb, hstamp]
      exact h.reached a ha
    · intro a ha
      rcases List.mem_append.1 ha with ha | ha
      · exact h.reached a ha
      · rw [List.mem_singleton.1 ha, hstamp]
    · intro a ha
      rcases List.mem_append.1 ha with ha | ha
      · exact h.records a ha
      · exact List.mem_singleton.1 ha ▸ hr
  · exact logSound_congr h (by simp [CompareUnit.countDropped]) (by simp)

theorem Ticking.withCompare (h : Ticking s) {c : CompareUnit} (hc : LogSound { s with compare := c }) :
    Ticking { s with compare := c } :=
  ⟨h.butPlay.withCompare hc, h.play.congr ⟨rfl, rfl, rfl, rfl⟩, h.stamp⟩

theorem Ticking.logFail (h : Ticking s) {r : FailRecord} (hr : RecordSound r) (hstamp : r.stamp = s.timebase.stamp) :
    Ticking (s.logFail r) := by
  have hlog := logSound_congr (t := { s with compare := (s.logFail r).compare })
    (logSound_logFail h.butPlay.log hr hstamp) rfl (by simp)
  exact (h.withCompare hlog).of_core (by simp [SameCore])

/-- A stop request in a run marks the run or does nothing (R93). -/
theorem Ticking.stopRequest (h : Ticking s) : Ticking s.stopRequest := by
  have mark (hrun : s.run.seq.running = true) : Ticking { s with run := { s.run with stopMark := true } } := by
    refine ⟨h.butPlay.withRun rfl ⟨h.butPlay.layout.valid, h.butPlay.layout.pending⟩ ⟨fun hstill => ?_, h.butPlay.marks.pending⟩
      ⟨h.butPlay.target.atMost, h.butPlay.target.below⟩
      ⟨h.butPlay.position.head, h.butPlay.position.loop, h.butPlay.position.tail⟩, h.play.congr ⟨rfl, rfl, rfl, rfl⟩, h.stamp⟩
    exact absurd hrun (by simp [show s.run.seq.running = false from hstill])
  unfold State.stopRequest
  cases hseq : s.run.seq with
  | head | loop => exact mark (by rw [hseq]; rfl)
  | idle | armed | tail | halted => exact h

@[simp] theorem Machine.State.haltRun_lanes (s : Machine.State) : s.haltRun.lanes.active = s.lanes.active := by
  simp [State.haltRun]

/-- A halt request leaves HALTED with the row latched and the lanes held (R96). -/
theorem Ticking.haltRun (h : Ticking s) (hrun : s.run.seq.running = true) : Ticking s.haltRun := by
  have hbase : RunBase s.haltRun := (h.runBase hrun).of_frame (by simp [SameBase, Timebase.stop]) (by simp) (by simp)
  have hlatched : s.play.latched.isSome = true := h.play.latched.trans (by rw [hrun]; rfl)
  refine ⟨{
    memory := hbase.memory
    window := hbase.window
    queue := hbase.queue
    timebase := ⟨by simp [Timebase.stop, SeqState.running], by simp [Timebase.stop], by simp [Timebase.stop], by simp [Timebase.stop]⟩
    layout := ⟨by simp [SeqState.running], by simp⟩
    marks := ⟨by simp, by simp⟩
    target := ⟨by simpa using h.butPlay.target.atMost, by simp⟩
    position := ⟨by simp, by simp, by simp⟩
    lanes := ⟨by rw [hbase.active, hbase.ready.1]; rfl, by simp, by simp [SeqState.running]⟩
    keepers := ?_
    log := hbase.log
    bus := hbase.bus },
    ⟨?_, by simpa using h.play.row, by simpa using h.play.unlatched, by simpa using h.play.waits, by simp [SeqState.running],
      hbase.strobeLow, hbase.strobeHigh⟩, by simpa [Timebase.stop] using h.stamp⟩
  · have hlanes : s.haltRun.lanes = ({ s with run := { s.run with seq := .halted, stopMark := false, pendingOffset := none } } :
        Machine.State).stopTimebase.holdLanes.lanes := by simp [State.haltRun]
    rw [hlanes]
    exact State.setLanes_keepersFollow _ _
  · simpa using hlatched

/-- A fail of a run is recorded and the policy applied (R145, R147). -/
theorem Ticking.detectFail (h : Ticking s) (hrun : s.run.seq.running = true) {failing : Lanes Bool} (hfailing : failing.any = true)
    (kind : FailKind) (row : RowNum) : Ticking (s.detectFail kind row failing) := by
  unfold State.detectFail
  split
  · next region _ =>
    have hlogged : Ticking ((s.raise .fail).logFail (s.failRecord kind region row failing)) :=
      (h.of_core (t := s.raise .fail) (by simp [SameCore])).logFail (recordSound_failRecord h.stamp hfailing kind region row)
        (by simp [State.failRecord])
    unfold State.applyPolicy
    split
    · exact hlogged
    · exact hlogged.stopRequest
    · exact hlogged.haltRun (by simpa using hrun)
  · exact h

/-! ### The front of a tick -/

/-- Row playback's counts within a tick: the same row latched, in a phase it may be in. -/
theorem Ticking.of_counts (h : Inv s) (hrun : s.run.seq.running = true) (hstamp : 1 ≤ s.timebase.stamp.toNat) {row : LatchedRow}
    (hrow : s.play.latched = some row) {p : Playback} (hlatched : p.latched = some row) (hstrobe : p.strobe = s.play.strobe)
    (hwaits : p.phase = .waiting → row.wait = true)
    (hreached : p.tickInRow ≤ dwellOf row.dwellLess1 ∧ (p.phase = .waiting → p.tickInRow < dwellOf row.dwellLess1)) :
    Ticking { s with play := p } where
  butPlay := h.butPlay.withPlay (hlatched.trans hrow.symm)
  play := {
    latched := by simp [hlatched, hrun]
    row := by
      intro r hr
      obtain rfl := Option.some.inj (hlatched.symm.trans hr)
      exact h.play.row _ hrow
    unlatched := by simp [hlatched]
    waits := by
      intro r hr
      obtain rfl := Option.some.inj (hlatched.symm.trans hr)
      exact hwaits
    reached := by
      intro r hr _
      obtain rfl := Option.some.inj (hlatched.symm.trans hr)
      exact hreached
    strobeLow := hstrobe ▸ h.play.strobeLow
    strobeHigh := hstrobe ▸ h.play.strobeHigh }
  stamp := hstamp

theorem Inv.dwellTick (h : Inv s) (hrun : s.run.seq.running = true) (hstamp : 1 ≤ s.timebase.stamp.toNat) {row : LatchedRow}
    (hrow : s.play.latched = some row) (hphase : s.play.phase = .dwell) : Ticking (s.dwellTick row) := by
  have hcounted : Ticking { s with play := { s.play with tickInRow := s.play.tickInRow + 1 } } :=
    .of_counts h hrun hstamp hrow hrow rfl (by simp [hphase]) ⟨h.play.notEnded row hrow hrun, by simp [hphase]⟩
  unfold State.dwellTick
  dsimp only
  split
  · unfold State.strobeCompare
    split
    · next hfail => exact hcounted.detectFail hrun hfail _ _
    · exact hcounted
  · exact hcounted

theorem Inv.waitCheck (h : Inv s) (hrun : s.run.seq.running = true) (hstamp : 1 ≤ s.timebase.stamp.toNat) {row : LatchedRow}
    (hrow : s.play.latched = some row) (hphase : s.play.phase = .waiting) : Ticking (s.waitCheck row) := by
  have hbefore := h.play.notEnded row hrow hrun
  unfold State.waitCheck
  dsimp only
  split
  · exact .of_counts h hrun hstamp hrow hrow rfl (fun _ => h.play.waits row hrow hphase) ⟨hbefore.le, fun _ => hbefore⟩
  · exact .of_counts h hrun hstamp hrow hrow rfl nofun ⟨Nat.zero_le _, nofun⟩

theorem Inv.playTick (h : Inv s) (hrun : s.run.seq.running = true) (hstamp : 1 ≤ s.timebase.stamp.toNat) : Ticking s.playTick := by
  unfold State.playTick
  split
  · exact ⟨h.butPlay, h.play.ticking, hstamp⟩
  · next row hrow =>
    split
    · next hphase => exact h.dwellTick hrun hstamp hrow hphase
    · next hphase => exact h.waitCheck hrun hstamp hrow hphase

/-- The stamp after one more tick is at least 1 and has not gone back (R70). -/
theorem advanceStamp_le (b : Timebase) : b.stamp.toNat ≤ b.advanceStamp.stamp.toNat ∧ 1 ≤ b.advanceStamp.stamp.toNat := by
  unfold Timebase.advanceStamp
  dsimp only
  split
  · next hmax =>
    rw [hmax]
    exact ⟨le_rfl, by decide⟩
  · next hmax =>
    have hlt := b.stamp.isLt
    have hne : b.stamp.toNat ≠ 4294967295 := fun heq => hmax (BitVec.eq_of_toNat_eq heq)
    have hnext : (b.stamp + 1).toNat = b.stamp.toNat + 1 := by
      rw [BitVec.toNat_add]
      exact Nat.mod_eq_of_lt (by simp; omega)
    omega

theorem Inv.tickFront (h : Inv s) (hrun : s.run.seq.running = true) : Ticking s.tickFront := by
  have hsampled : Inv s.takeSample := h.of_butPlay
    ((h.butPlay.withLanes (u := { s.lanes with sample := s.sampledLevels }) ⟨h.lanes.active, h.lanes.parked, h.lanes.played⟩
      h.keepers).of_core (by simp [SameCore, State.takeSample])) ⟨rfl, rfl, rfl, rfl⟩
  obtain ⟨hle, hlow⟩ := advanceStamp_le s.timebase
  have hstamped : Inv { s.takeSample with timebase := s.takeSample.timebase.advanceStamp } :=
    hsampled.of_butPlay (hsampled.butPlay.withTimebase
      ⟨h.timebase.counting, h.timebase.prescaleCount, h.timebase.periodCount, h.timebase.startHeld⟩ hle) ⟨rfl, rfl, rfl, rfl⟩
  exact hstamped.playTick hrun hlow

/-! ### Timeout, row end and the whole tick -/

theorem Ticking.beginDwell (h : Ticking s) : Ticking s.beginDwell where
  butPlay := h.butPlay.withPlay (p := { s.play with phase := .dwell, tickInRow := 0 }) rfl
  play := ⟨h.play.latched, h.play.row, fun hnone => ⟨rfl, rfl, (h.play.unlatched hnone).2.2⟩,
    by simp [State.beginDwell], by simp [State.beginDwell, dwellOf], h.play.strobeLow, h.play.strobeHigh⟩
  stamp := h.stamp

/-- What a timeout has due in the tick: a run, its row, and the mismatch of the check (R113). -/
theorem timeoutDue_iff (s : Machine.State) : s.timeoutDue = true ↔
    s.pins.resetLow = false ∧ s.run.seq.running = true ∧ s.play.latched.isSome = true ∧ s.play.phase = .waiting ∧
      s.play.waitLimit ≠ 0 ∧ s.play.waitCount = s.play.waitLimit ∧ s.play.checkMismatch.any = true := by
  simp [State.timeoutDue, and_assoc]

/-- After the timeout that a tick may bring none is due. -/
theorem Ticking.timeOut (h : Ticking s) : Ticking s.timeOut ∧ s.timeOut.timeoutDue = false := by
  unfold State.timeOut
  cases hrow : s.play.latched with
  | none => exact ⟨h, by simp [State.timeoutDue, hrow]⟩
  | some row =>
    dsimp only
    split
    · next hdue =>
      obtain ⟨-, hrun, -, -, -, -, hmissed⟩ := (timeoutDue_iff s).1 hdue
      have hfailed := h.detectFail hrun hmissed .waitTimeout row.row
      unfold State.afterTimeout
      split
      · next hhalted => exact ⟨hfailed, by simp [State.timeoutDue, hhalted, SeqState.running]⟩
      · exact ⟨hfailed.beginDwell, by simp [State.timeoutDue, State.beginDwell]⟩
    · next hdue => exact ⟨h, by simpa using hdue⟩

theorem Ticking.movingOn (h : Ticking s) (hrun : s.run.seq.running = true) : MovingOn s :=
  ⟨h.runBase hrun, hrun, h.butPlay.timebase, h.butPlay.layout, h.butPlay.target.atMost⟩

/-- A row end is due in a run alone (R109). -/
theorem running_of_rowEndDue (h : s.rowEndDue = true) : s.run.seq.running = true := by
  unfold State.rowEndDue at h
  split at h
  · simp only [Bool.and_eq_true] at h
    exact h.1.1.2
  · cases h

/-- The row end that a tick may bring ends its event (R111). -/
theorem Ticking.endRow (h : Ticking s) (htimeout : s.timeoutDue = false) : Inv s.endRow := by
  unfold State.endRow
  split
  · next hdue => exact (h.movingOn (running_of_rowEndDue hdue)).answerRowEnd h.butPlay.position h.butPlay.target
  · next hdue => exact h.inv htimeout (by simpa using hdue)

theorem Inv.takeTick (h : Inv s) (hrun : s.run.seq.running = true) : Inv s.takeTick := by
  obtain ⟨hafter, htimeout⟩ := (h.tickFront hrun).timeOut
  exact hafter.endRow htimeout

/-- The timebase takes cycles in a run alone (R67). -/
theorem Inv.running_of_takesCycles (h : Inv s) (htakes : s.takesCycles = true) :
    s.run.seq.running = true ∧ s.timebase.counting = true ∧ s.timebase.startHeld = false := by
  simp only [State.takesCycles, Bool.and_eq_true, Bool.not_eq_true'] at htakes
  obtain ⟨⟨⟨-, hcounting⟩, hheld⟩, -⟩ := htakes
  exact ⟨h.timebase.counting.symm.trans hcounting, hcounting, hheld⟩

/-- The counts of a running timebase, within its division and period (R62). -/
theorem Inv.withCounts (h : Inv s) {b : Timebase} (hkept : b.counting = s.timebase.counting ∧ b.startHeld = s.timebase.startHeld ∧
      b.stamp = s.timebase.stamp) (hcounts : b.prescaleCount < b.division ∧ b.periodCount < b.periodLength) :
    Inv { s with timebase := b } := by
  obtain ⟨hcounting, hheld, hstamp⟩ := hkept
  refine h.of_butPlay (h.butPlay.withTimebase ⟨hcounting.trans h.timebase.counting, fun _ => hcounts.1, fun _ => hcounts.2,
    fun hs => ?_⟩ (by rw [hstamp])) ⟨rfl, rfl, rfl, rfl⟩
  exact (h.timebase.startHeld (hheld.symm.trans hs)).imp_left hcounting.trans

theorem Machine.Timebase.division_pos (b : Timebase) : 0 < b.division := Nat.two_pow_pos _

/-- A period that completes makes its tick (R63). -/
theorem Inv.completeAndTick (h : Inv s) (hrun : s.run.seq.running = true) :
    Inv ({ s with timebase := s.timebase.complete } : Machine.State).takeTick :=
  (h.withCounts (b := s.timebase.complete) ⟨rfl, rfl, rfl⟩ ⟨s.timebase.division_pos, Nat.succ_pos _⟩).takeTick hrun

theorem Inv.completePeriod (h : Inv s) : Inv s.completePeriod := by
  unfold State.completePeriod
  split
  · next htakes =>
    split
    · exact h.completeAndTick (h.running_of_takesCycles htakes).1
    · exact h.withCounts (b := s.timebase.holdBack) ⟨rfl, rfl, rfl⟩
        ⟨Nat.sub_lt s.timebase.division_pos Nat.one_pos, Nat.lt_succ_self _⟩
  · exact h

/-- Between events neither a timeout nor a row end is due, so the commands of that name find no cause (log entry 2). -/
theorem Inv.timeOut_eq (h : Inv s) : s.timeOut = s := by
  unfold State.timeOut
  split
  · rw [h.play.noTimeout]
    rfl
  · rfl

theorem Inv.endRow_eq (h : Inv s) : s.endRow = s := by
  have hdue : s.rowEndDue = false := by
    unfold State.rowEndDue
    split
    · next row hrow =>
      by_contra hend
      simp only [Bool.not_eq_false, Bool.and_eq_true, beq_iff_eq] at hend
      obtain ⟨⟨⟨-, hrun⟩, -⟩, hdwell⟩ := hend
      exact (h.play.notEnded row hrow hrun).ne hdwell
    · rfl
  simp [State.endRow, hdue]

end Sys2Proof
end

section
/-! Every command and every CLKIN cycle keeps the invariant. -/

namespace Sys2Proof

open Machine

variable {s t : Machine.State}

/-! ### The commands of run control, the commit and the resets -/

theorem Inv.commitPoint (h : Inv s) (hready : Ready s) : Inv s.commitPoint := by
  have hbase := (h.runBase hready).commitPoint
  have hcommitted : InvButPlay { s with pm := s.commitPoint.pm, queue := s.commitPoint.queue } :=
    h.butPlay.withMemory (.of_ready ⟨hready.1, hbase.ready.2⟩ hbase.wf hbase.fill hbase.commits) hbase.queue
      fun hheld => commitPoint_commits_ne_nil (h.timebase.startHeld hheld).2
  exact h.of_butPlay (hcommitted.of_core (by simp [SameCore])) (by simp [SamePlay])

theorem Inv.commitCommand (h : Inv s) (hready : Ready s) : Inv s.commitCommand.1 := by
  unfold State.commitCommand
  split
  · exact h
  · split
    iterate 2 exact h.commitPoint hready
    all_goals exact h

theorem Inv.startCommand (h : Inv s) (hready : Ready s) : Inv s.startCommand.1 := by
  unfold State.startCommand
  cases hseq : s.run.seq with
  | idle =>
    dsimp only
    split
    · next hvalid => exact h.runStart hready hvalid
    · exact h
  | armed => exact h.runStart hready (h.layout.valid (.inl hseq))
  | head | loop | tail | halted => exact h

theorem Inv.armCommand (h : Inv s) (hready : Ready s) : Inv s.armCommand.1 := by
  unfold State.armCommand
  cases hseq : s.run.seq with
  | idle =>
    dsimp only
    split
    · next hvalid => exact h.park hready (.inl hseq) (.inr rfl) fun _ => hvalid
    · exact h
  | armed | head | loop | tail | halted => exact h

theorem Inv.mark (h : Inv s) (hrun : s.run.seq.running = true) : Inv { s with run := { s.run with stopMark := true } } := by
  refine h.of_butPlay (h.butPlay.withRun rfl ⟨h.layout.valid, h.layout.pending⟩ ⟨fun hstill => ?_, h.marks.pending⟩
    ⟨h.target.atMost, h.target.below⟩ ⟨h.position.head, h.position.loop, h.position.tail⟩) ⟨rfl, rfl, rfl, rfl⟩
  exact absurd hrun (by simp [show s.run.seq.running = false from hstill])

/-- A timebase that does not count has nothing to stop (R66, R67). -/
theorem TimebaseSound.stop_eq (h : TimebaseSound s) (hstill : s.run.seq.running = false) : s.timebase.stop = s.timebase := by
  have hcounting : s.timebase.counting = false := h.counting.trans hstill
  have hheld : s.timebase.startHeld = false := by
    by_contra hheld
    have hcounts := (h.startHeld (by simpa using hheld)).1
    simp [hcounting] at hcounts
  cases hb : s.timebase
  simp_all [Timebase.stop]

theorem Inv.stopCommand (h : Inv s) (hready : Ready s) : Inv s.stopCommand.1 := by
  unfold State.stopCommand
  cases hseq : s.run.seq with
  | armed =>
    have hparked := h.park hready (.inr hseq) (.inl rfl) (q := .idle) nofun
    refine hparked.of_core ?_
    have hstop := h.timebase.stop_eq (by rw [hseq]; rfl)
    simp [SameCore, hstop]
  | head | loop => exact h.mark (by rw [hseq]; rfl)
  | idle | tail | halted => exact h

theorem Inv.abortCommand (h : Inv s) (hready : Ready s) : Inv s.abortCommand.1 := by
  unfold State.abortCommand
  split
  · exact h
  all_goals exact (h.runBase hready).toIdle h.target.atMost

/-! ### The resets -/

theorem windowSound_reset : WindowSound .reset := by constructor <;> decide

theorem queueSound_reset : QueueSound .reset := ⟨by decide, nofun, nofun, nofun, nofun⟩

theorem layoutSound_reset : LayoutSound .reset := ⟨by decide, nofun⟩

theorem marksSound_reset : MarksSound .reset := ⟨fun _ => rfl, fun _ => rfl⟩

theorem targetSound_reset : TargetSound .reset := ⟨by decide, by decide⟩

theorem positionSound_reset : PositionSound .reset := ⟨by decide, by decide, by decide⟩

/-- Released lanes are parked at park RELEASE (R128). -/
theorem parkStates_release {u : LaneUnit} (heffective : u.effective = Lanes.all .released) (hpark : u.park = Lanes.all .release) :
    u.effective = u.parkStates := by
  ext n
  simp [heffective, hpark, Park.state]

theorem Inv.softReset (h : Inv s) (hready : Ready s) : Inv s.softReset := by
  have hrun := h.runBase hready
  have hwindow : s.softReset.window = .reset := rfl
  have hqueue : s.softReset.queue = .reset := rfl
  have hplay : s.softReset.play = .reset := rfl
  have hbase : RunBase s.softReset := {
    ready := hready
    wf := hrun.wf
    fill := fun g hg => h.fillAfterAbort_within s.free hg
    commits := hrun.commits
    window := hwindow ▸ windowSound_reset
    queue := hqueue ▸ queueSound_reset
    active := hrun.active
    strobeLow := by rw [hplay]; decide
    strobeHigh := by rw [hplay]; decide
    log := logSound_nil rfl
    bus := busSound_congr h.bus rfl rfl rfl }
  exact hbase.atRest (.inl rfl) ⟨rfl, rfl⟩ (fun harmed => nomatch harmed) ⟨rfl, rfl⟩
    (fun hne => absurd rfl hne) ⟨rfl, rfl, rfl, rfl⟩
    (parkStates_release rfl rfl) (State.setLanes_keepersFollow _ _)

/-- Every block at its power-on values, with lanes that are released and follow their pins (R9, R176). -/
theorem inv_powerOnValues (hwf : s.pm.rows.wf = true) {u : LaneUnit} (hactive : u.active = !s.pins.resetLow)
    (heffective : u.effective = Lanes.all .released) (hpark : u.park = Lanes.all .release) (hkeepers : KeepersFollow u) :
    Inv (s.powerOnValues u) := by
  have hrun : (s.powerOnValues u).run = .reset := rfl
  have hplay : (s.powerOnValues u).play = .reset := rfl
  have htimebase : (s.powerOnValues u).timebase = .reset := rfl
  exact {
    memory := ⟨hwf, fun f hf => (nomatch hf), fun _ => ⟨rfl, rfl, rfl, rfl⟩, fun n hn => (nomatch hn),
      fun hreset => ⟨rfl, if_pos hreset, rfl, rfl⟩⟩
    window := windowSound_reset
    queue := queueSound_reset
    timebase := ⟨rfl, by rw [htimebase]; decide, by rw [htimebase]; decide, by simp [htimebase, Timebase.reset]⟩
    layout := layoutSound_reset
    marks := marksSound_reset
    target := targetSound_reset
    position := positionSound_reset
    play := ⟨by rw [hplay, hrun]; decide, by simp [hplay, Playback.reset], by rw [hplay]; decide, by simp [hplay, Playback.reset],
      by simp [hplay, Playback.reset], by simp [State.timeoutDue, hplay, Playback.reset], by rw [hplay]; decide, by rw [hplay]; decide⟩
    lanes := ⟨hactive, fun _ _ => parkStates_release heffective hpark, by simp [hplay, Playback.reset]⟩
    keepers := hkeepers
    log := logSound_nil rfl
    bus := ⟨by simp [State.powerOnValues, HostBus.resetWith], by simp [State.powerOnValues, HostBus.resetWith]⟩ }

theorem Inv.powerOn (h : Inv s) : Inv s.powerOn :=
  inv_powerOnValues h.memory.wf (by simp [State.lanesAtPowerOn]) (by simp [State.lanesAtPowerOn, LaneUnit.reset])
    (by simp [State.lanesAtPowerOn, LaneUnit.reset]) (LaneUnit.settle_keepersFollow _ _ _)

theorem Inv.releaseReset (h : Inv s) : Inv s.releaseReset := by
  unfold State.releaseReset
  split
  · exact inv_powerOnValues (s := { s with pins := { s.pins with resetLow := false } }) (u := s.lanesAtRelease) h.memory.wf
      (by simp [State.lanesAtRelease, LaneUnit.reset])
      (by simp [State.lanesAtRelease, LaneUnit.reset]) (by simp [State.lanesAtRelease, LaneUnit.reset])
      (LaneUnit.settle_keepersFollow _ _ _)
  · exact h

theorem Inv.assertReset (h : Inv s) : Inv s.assertReset := by
  have hrun : s.assertReset.run = { s.run with seq := .idle, stopMark := false, pendingOffset := none, passmarkCycles := 0 } := rfl
  have htimebase : s.assertReset.timebase = s.timebase.stop := rfl
  have hplay : s.assertReset.play =
      { s.play with latched := none, phase := .dwell, tickInRow := 0, waitCount := 0, markCycles := 0 } := rfl
  have hhigh : s.assertReset.pins.resetLow = true := rfl
  exact {
    memory := ⟨h.memory.wf, fun f hf => (nomatch hf), fun hsweep => (nomatch hsweep), fun n hn => (nomatch hn),
      fun _ => ⟨rfl, rfl, rfl, rfl⟩⟩
    window := h.window
    queue := queueSound_reset
    timebase := by constructor <;> simp [htimebase, hrun, Timebase.stop, SeqState.running]
    layout := by constructor <;> simp [hrun, SeqState.running]
    marks := by constructor <;> simp [hrun]
    target := ⟨h.target.atMost, by simp [hrun]⟩
    position := by constructor <;> simp [hrun]
    play := ⟨by rw [hplay, hrun]; rfl, by simp [hplay], by simp [hplay], by simp [hplay], by simp [hplay],
      by simp [State.timeoutDue, hhigh], h.play.strobeLow, h.play.strobeHigh⟩
    lanes := ⟨rfl, by simp [hhigh], by simp [hplay]⟩
    keepers := s.setLanes_keepersFollow fun u => { u with effective := Lanes.all .released, active := false }
    log := logSound_congr h.log rfl rfl
    bus := ⟨by simp [State.assertReset], by simp [State.assertReset]⟩ }

/-! ### TRIG -/

theorem Inv.takeTrigEdge (h : Inv s) : Inv s.takeTrigEdge := by
  unfold State.takeTrigEdge
  cases hseq : s.run.seq with
  | armed => exact h.runStart (h.memory.ready (by simp [hseq])) (h.layout.valid (.inl hseq))
  | head | loop | tail | halted => exact h.raise _
  | idle => exact h

theorem Inv.sampleTrig (h : Inv s) (level : Bool) : Inv (s.sampleTrig level) := by
  have hsampled : Inv { s with pins := { s.pins with trig := level } } := h.of_core (by simp [SameCore])
  unfold State.sampleTrig
  dsimp only
  split
  · exact hsampled.takeTrigEdge
  · exact hsampled

/-! ### Every command -/

theorem Inv.writeEvents (h : Inv s) (ones : Word) : Inv (s.writeEvents ones) :=
  h.busCycle fun _ => h.of_core (by simp [SameCore])

/-- Every row of the table but the two that are decoded further, UNKNOWN_COMMAND and REGISTER_WRITE. -/
theorem Inv.exec_of_row (h : Inv s) {c : Instr} (hu : ∀ code, c ≠ .unknownCommand code) (hw : c.request ≠ .writeCycle)
    (he : exec c s = .next t) : Inv t := by
  cases c with
  | powerOn => cases he; exact h.powerOn
  | resetNAssert => cases he; exact h.assertReset
  | resetNRelease => cases he; exact h.releaseReset
  | sweepRowWrite => cases he; exact h.sweepRow
  | fillRowWrite => cases he; exact h.fillRow
  | commitApplicationEnd => cases he; exact h.endCommitApplication
  | start => cases he; exact h.command h.startCommand
  | arm => cases he; exact h.command h.armCommand
  | stop => cases he; exact h.command h.stopCommand
  | abort => cases he; exact h.command h.abortCommand
  | setWindow => cases he; exact h.command fun _ => h.setWindow
  | seek => cases he; exact h.command fun _ => h.seek
  | fill => cases he; exact h.command h.fillCommand
  | fillAbort => cases he; exact h.command h.fillAbort
  | closeBatch => cases he; exact h.command h.closeBatch
  | discardBatch => cases he; exact h.command h.discardBatch
  | flushQueue => cases he; exact h.command h.flushQueue
  | commit => cases he; exact h.command h.commitCommand
  | logPop => cases he; exact h.command fun _ => h.popLog
  | logClear => cases he; exact h.command fun _ => h.clearLog
  | softReset => cases he; exact h.command h.softReset
  | unknownCommand code => exact absurd rfl (hu code)
  | dataWrite word => cases he; exact h.busCycle fun hreset => h.writeData hreset word
  | dataRead => cases he; exact h.busCycle fun _ => h.readData
  | eventsWrite value => cases he; exact h.writeEvents value
  | eventEnableWrite value =>
    cases he
    exact h.regWrite fun _ => h.of_core (by simp [SameCore, State.writeEnables])
  | parkWrite half value => cases he; exact h.regWrite fun hready => h.writePark hready half value
  | termWrite half value => cases he; exact h.regWrite fun _ => h.writeTerm half value
  | entryOffsetWrite value => cases he; exact h.regWrite fun _ => h.writeEntryOffset value
  | passTargetWrite value => cases he; exact h.regWrite fun _ => h.writePassTarget value
  | layoutWrite reg value => cases he; exact h.regWrite fun _ => h.writeLayout reg value
  | timebaseWrite reg value => cases he; exact h.regWrite fun _ => h.writeTimebase reg value
  | strobeWrite value => cases he; exact h.regWrite fun _ => h.writeStrobe value
  | waitLimitWrite value => cases he; exact h.regWrite fun _ => h.writeWaitLimit value
  | compareMaskWrite value => cases he; exact h.regWrite fun _ => h.withCompareSettings _ _
  | failPolicyWrite value => cases he; exact h.regWrite fun _ => h.writePolicy value
  | windowRegisterWrite reg value => cases he; exact h.regWrite fun _ => h.writeWindow reg value
  | runConfigWrite value => cases he; exact h.regWrite fun _ => h.writeRunConfig value
  | registerWrite addr value => exact absurd rfl hw
  | trigEdge level => cases he; exact h.sampleTrig level
  | gateChange level => cases he; exact h.of_core (by simp [SameCore])
  | tick => cases he; exact h.completePeriod
  | waitTimeout => cases he; exact h.timeOut_eq.symm ▸ h
  | rowEnd => cases he; exact h.endRow_eq.symm ▸ h
  | markPulseEnd => cases he; exact h.withPulses s.run.passmarkCycles 0
  | passmarkPulseEnd => cases he; exact h.withPulses 0 s.play.markCycles
  | uutLaneDriveChange n d => cases he; exact h.changeUutDrive n d
  | pulledLevelReached n => cases he; exact h.reachPulledLevel n

/-- The row of a code is a command of its own (R168). -/
theorem commandOfCode_row {code : Word} {c : Instr} (h : commandOfCode code = some c) :
    (∀ code', c ≠ .unknownCommand code') ∧ c.request ≠ .writeCycle := by
  unfold commandOfCode at h
  split at h <;> cases h <;> exact ⟨nofun, nofun⟩

/-- A code written to COMMAND is the row of its code, or changes the report alone (R168). -/
theorem Inv.writeCommand (h : Inv s) (code : Word) : Inv (s.writeCommand code) := by
  have hrow := exec_commandOfCode code s
  cases hc : commandOfCode code with
  | some c =>
    rw [hc] at hrow
    exact h.exec_of_row (commandOfCode_row hc).1 (commandOfCode_row hc).2 hrow
  | none =>
    refine h.command fun _ => ?_
    rw [s.ownerOf_unknown hc]
    exact h

/-- Every command keeps the invariant. -/
theorem Inv.exec (h : Inv s) {c : Instr} (he : exec c s = .next t) : Inv t := by
  have row {d : Instr} (hw : d.request ≠ .writeCycle) (hd : Machine.exec d s = .next t) : Inv t := by
    by_cases hu : ∃ code, d = .unknownCommand code
    · obtain ⟨code, rfl⟩ := hu
      cases hd
      exact h.writeCommand code
    · exact h.exec_of_row (fun code heq => hu ⟨code, heq⟩) hw hd
  by_cases hw : c.request = .writeCycle
  · cases c with
    | registerWrite addr value =>
      cases hr : registerRow addr value with
      | none => rw [exec_registerWrite_of_no_row hr] at he; cases he; exact h
      | some d => exact row (registerRow_request hr).1 ((exec_registerWrite_of_row hr s).symm.trans he)
    | _ => cases hw
  · exact row hw he

/-! ### A CLKIN cycle -/

theorem Inv.clockTimebase (h : Inv s) : Inv s.clockTimebase := by
  unfold State.clockTimebase
  split
  · next htakes =>
    obtain ⟨hrun, hcounting, -⟩ := h.running_of_takesCycles htakes
    have hprescale := h.timebase.prescaleCount hcounting
    have hperiod := h.timebase.periodCount hcounting
    split
    · split
      · exact h.completeAndTick hrun
      · exact h
    · next hlast =>
      have hmore : s.timebase.division ≤ s.timebase.prescaleCount + 1 → s.timebase.periodCount + 1 < s.timebase.periodLength := by
        simpa [Timebase.lastCycle] using hlast
      unfold Timebase.count
      split
      · next hnext => exact h.withCounts ⟨rfl, rfl, rfl⟩ ⟨hnext, hperiod⟩
      · next hnext => exact h.withCounts ⟨rfl, rfl, rfl⟩ ⟨s.timebase.division_pos, hmore (by omega)⟩
  · exact h

/-- While a commit application is in progress a cycle of the timebase makes no tick, and so no commit (R64). -/
theorem Machine.State.clockTimebase_commits (s : Machine.State) (h : s.pm.commits ≠ []) : s.clockTimebase.pm = s.pm := by
  unfold State.clockTimebase
  split
  · split
    · split
      · next hnil => exact absurd (by simpa using hnil) h
      · rfl
    · rfl
  · rfl

/-- One cycle of the application that was in progress when the CLKIN cycle began (R64). -/
theorem Inv.clockCommit (h : Inv s) (before : List Nat) (hb : before ≠ [] → s.pm.commits = before) : Inv (s.clockCommit before) := by
  unfold State.clockCommit
  split
  · exact h
  · next n rest =>
    have hc : s.pm.commits = n :: rest := hb (List.cons_ne_nil _ _)
    split
    · exact h.endCommitApplication
    · next hn =>
      refine h.of_butPlay (h.butPlay.withMemory (q := s.queue) (p := { s.pm with commits := (n - 1) :: rest }) ?_ h.queue
        fun _ => List.cons_ne_nil _ _) ⟨rfl, rfl, rfl, rfl⟩
      have hne : s.pm.commits ≠ [] := by simp [hc]
      exact { h.memory with
        sweep := fun hsweep => absurd (h.memory.sweep hsweep).2.2.2 hne
        commits := by
          intro m hm
          rcases List.mem_cons.1 hm with rfl | hm
          · omega
          · exact h.memory.commits m (hc ▸ List.mem_cons_of_mem _ hm)
        reset := fun hreset => absurd (h.memory.reset hreset).2.2.2 hne }

theorem Inv.clockBlocks (h : Inv s) : Inv s.clockBlocks := by
  have hpulsed : Inv s.clockPulses := h.withPulses _ _
  have htimed := hpulsed.sweepRow.clockTimebase
  refine htimed.clockCommit _ fun hne => ?_
  have hswept : s.clockPulses.sweepRow.pm.commits = s.pm.commits := by simp [State.clockPulses]
  rw [State.clockTimebase_commits _ (hswept.symm ▸ hne), hswept]

/-- A read begins: the data lines are driven with the strobes of a read low (R165). -/
theorem Inv.beginRead (h : Inv s) (hreset : s.pins.resetLow = false) (hseen : s.bus.seen = ⟨true, true, false⟩) (addr : Addr) :
    Inv (s.beginRead addr) := by
  have drive {u : Machine.State} (hu : Inv u) (hr : u.pins.resetLow = false) (hs : u.bus.seen = ⟨true, true, false⟩)
      (word : Option Word) : Inv { u with bus := { u.bus with driven := word } } :=
    hu.of_butPlay (hu.butPlay.withBus ⟨fun _ => hr, fun _ => hs⟩) ⟨rfl, rfl, rfl, rfl⟩
  unfold State.beginRead
  split
  · obtain ⟨hpins, -, hseen', -⟩ := s.readData_sameLines
    exact drive h.readData (hpins ▸ hreset) (hseen'.trans hseen) _
  · exact drive h hreset hseen _

/-- One strobe followed: the drive stops, and the cycle of the edge is taken (R165). -/
theorem Inv.followStrobe (h : Inv s) (hreset : s.pins.resetLow = false) (k : Strobe) : Inv (s.followStrobe k) := by
  unfold State.followStrobe
  dsimp only
  split
  · exact h
  · have hquiet : Inv { s with bus := { s.bus with seen := s.pins.lines.strobes.follow k s.bus.seen, driven := none } } :=
      h.of_butPlay (h.butPlay.withBus ⟨nofun, nofun⟩) ⟨rfl, rfl, rfl, rfl⟩
    generalize s.pins.lines.strobes.follow k s.bus.seen = seen at hquiet ⊢
    cases he : seen.event k with
    | write => exact hquiet.exec (c := .registerWrite _ _) rfl
    | read =>
      refine hquiet.beginRead hreset ?_ _
      obtain ⟨cs, rd, wr⟩ := seen
      revert he
      cases k <;> cases cs <;> cases rd <;> cases wr <;> simp [Strobes.event]
    | nothing => exact hquiet

theorem Inv.sampleLines (h : Inv s) (hreset : s.pins.resetLow = false) : Inv s.sampleLines := by
  have follow (ks : List Strobe) : ∀ u : Machine.State, Inv u → u.pins.resetLow = false → Inv (ks.foldl State.followStrobe u) := by
    induction ks with
    | nil => exact fun u hu _ => hu
    | cons k ks ih => exact fun u hu hr => ih _ (hu.followStrobe hr k) (by simpa using hr)
  unfold State.sampleLines
  split
  · exact h
  · exact follow _ _ (h.of_core (by simp [SameCore])) hreset

theorem Inv.clockCycle (h : Inv s) : Inv s.clockCycle := by
  unfold State.clockCycle
  split
  · exact h
  · next hreset => exact h.clockBlocks.sampleLines (by simpa using hreset)

/-- Settles O60: a step is a command, which keeps the invariant by its row of the table, or a CLKIN cycle of the blocks and the bus
lines. -/
theorem everyStepKeepsTheInvariant : Obligations.EveryStepKeepsTheInvariant := by
  unfold Obligations.EveryStepKeepsTheInvariant
  intro s t h hstep
  unfold step at hstep
  split at hstep
  · cases hstep
    exact h.clockCycle
  · next c rest _ =>
    have hrest : Inv { s with pending := rest } := h.of_core (by simp [SameCore])
    exact hrest.exec hstep

/-- Settles O59: the state after reset is a state at its power-on values. -/
theorem resetMeetsTheInvariant : Obligations.ResetMeetsTheInvariant := by
  unfold Obligations.ResetMeetsTheInvariant
  have hpowered : Inv (State.reset.powerOnValues .reset) :=
    inv_powerOnValues Memory.wf_reset rfl rfl rfl (by intro n b; revert n b; decide)
  exact hpowered.of_core (by simp [SameCore, State.powerOnValues, State.reset, HostBus.resetWith])

end Sys2Proof
end

section
/-! Events without their cause, pulses, and what the part does while RESET_N is low (R90, R108, R165, R176). -/

namespace Sys2Proof.Machine

/-! ### Causes -/

/-- A row end is due exactly where the latched row of a run has ended (R109). -/
theorem State.rowEndDue_iff (s : State) : s.rowEndDue = true ↔ ∃ row, RowEnded s row := by
  unfold State.rowEndDue RowEnded
  cases hrow : s.play.latched with
  | none => simp
  | some row => simp [and_assoc]

/-- Without a timeout due WAIT_TIMEOUT does nothing (log entry 2). -/
theorem State.timeOut_of_not_due (s : State) (h : s.timeoutDue = false) : s.timeOut = s := by
  unfold State.timeOut
  split
  · rw [h]; rfl
  · rfl

theorem State.endRow_of_not_due (s : State) (h : s.rowEndDue = false) : s.endRow = s := by
  simp [State.endRow, h]

theorem State.sweepRow_none (s : State) (h : s.pm.sweep = none) : s.sweepRow = s := by
  unfold State.sweepRow
  rw [h]

theorem State.fillRow_none (s : State) (h : s.pm.fill = none) : s.fillRow = s := by
  unfold State.fillRow
  rw [h]

theorem State.endCommitApplication_nil (s : State) (h : s.pm.commits = []) : s.endCommitApplication = s := by
  unfold State.endCommitApplication
  rw [h]

/-- A lane that is at a level, or has no pull, has no level to reach (R127). -/
theorem State.reachPulledLevel_of_still (s : State) (n : Lane) (h : s.lanes.pinLevel n ≠ none ∨ s.lanes.pull n = none) :
    s.reachPulledLevel n = s := by
  unfold State.reachPulledLevel
  split
  · next hlevel hpull => simp [hlevel, hpull] at h
  · rfl

/-- Settles O58: each event by its own cause. -/
theorem eventsWithoutACauseDoNothing : Obligations.EventsWithoutACauseDoNothing := by
  unfold Obligations.EventsWithoutACauseDoNothing
  intro s
  refine ⟨fun hsweep => ?_, fun hfill => ?_, fun hcommits => ?_, fun hended => ?_, fun hwait => ?_, fun n hlevel => ?_⟩
  · exact congrArg Host.Outcome.next (s.sweepRow_none hsweep)
  · rcases hfill with hfill | hcommits
    · exact congrArg Host.Outcome.next (s.fillRow_none hfill)
    · exact congrArg Host.Outcome.next (s.fillRow_of_commits hcommits)
  · exact congrArg Host.Outcome.next (s.endCommitApplication_nil hcommits)
  · refine congrArg Host.Outcome.next (s.endRow_of_not_due ?_)
    rw [← Bool.not_eq_true, s.rowEndDue_iff]
    exact fun ⟨row, hrow⟩ => hended row hrow
  · refine congrArg Host.Outcome.next (s.timeOut_of_not_due ?_)
    rw [← Bool.not_eq_true, timeoutDue_iff]
    rintro ⟨-, -, -, hphase, hlimit, hcount, -⟩
    rcases hwait with hdwell | hzero | hshort
    · simp [hphase] at hdwell
    · exact hlimit hzero
    · exact hshort hcount
  · exact congrArg Host.Outcome.next (s.reachPulledLevel_of_still n hlevel)

/-- Settles O48: each command sets the cycles of its pulse to 0, and the pins are high while cycles are left. -/
theorem pulseEndsLowerTheirPins : Obligations.PulseEndsLowerTheirPins := by
  unfold Obligations.PulseEndsLowerTheirPins
  intro s
  refine ⟨rfl, rfl, fun hreset => ⟨?_, ?_⟩⟩
  · simp [State.markPin, hreset, Nat.pos_iff_ne_zero]
  · simp [State.passmarkPin, hreset, Nat.pos_iff_ne_zero]

/-! ### RESET_N low -/

/-- While RESET_N is low IRQ_N is released and RUNNING, PASSMARK and MARK are low (R80, R90, R108, R162). -/
theorem State.outputs_of_reset (s : State) (h : s.pins.resetLow = true) :
    s.irqLow = false ∧ s.runningPin = false ∧ s.passmarkPin = false ∧ s.markPin = false := by
  simp [State.irqLow, State.runningPin, State.passmarkPin, State.markPin, h]

/-- While RESET_N is low no bus cycle is taken (R165). -/
theorem exec_busCycle_reset {c : Instr} (hevent : c.request ≠ .event) {s : State} (h : s.pins.resetLow = true) :
    exec c s = .next s := by
  have row {d : Instr} (hd : d.request ≠ .event) (hw : d.request ≠ .writeCycle) : exec d s = .next s := by
    cases hr : d.request with
    | command =>
      obtain ⟨f, hf⟩ := exec_of_command hr s
      rw [hf, s.command_reset f h]
    | registerWrite =>
      obtain ⟨f, hf⟩ := exec_of_registerWrite hr s
      rw [hf, s.regWrite_reset f h]
    | eventsWrite =>
      cases d with
      | eventsWrite value => exact congrArg Host.Outcome.next (s.busCycle_reset _ h)
      | _ => cases hr
    | dataTransfer =>
      cases d with
      | dataWrite word => exact congrArg Host.Outcome.next (s.busCycle_reset _ h)
      | dataRead => exact congrArg Host.Outcome.next (s.busCycle_reset _ h)
      | _ => cases hr
    | writeCycle => exact absurd hr hw
    | event => exact absurd hr hd
  by_cases hw : c.request = .writeCycle
  · cases c with
    | registerWrite addr value =>
      cases hr : registerRow addr value with
      | none => exact exec_registerWrite_of_no_row hr s
      | some d =>
        rw [exec_registerWrite_of_row hr]
        exact row (registerRow_request hr).2 (registerRow_request hr).1
    | _ => cases hw
  · exact row hevent hw

/-- Without cycles for the timebase a period does not complete (R66, R67, R68). -/
theorem exec_tick_of_not_takesCycles {s : State} (h : s.takesCycles = false) : exec .tick s = .next s := by
  show Host.Outcome.next s.completePeriod = _
  simp [State.completePeriod, h]

/-- Settles O7: every request by its kind, the events of a tick by their cause, the pins by their level while RESET_N is low. -/
theorem heldInResetNothingIsTaken : Obligations.HeldInResetNothingIsTaken := by
  unfold Obligations.HeldInResetNothingIsTaken
  intro s hreset
  refine ⟨fun c hc => exec_busCycle_reset hc hreset, fun addr => by simp [State.readReg, hreset], fun level => ?_,
    exec_tick_of_not_takesCycles (by simp [State.takesCycles, hreset]), ?_, ?_, s.outputs_of_reset hreset⟩
  · show Host.Outcome.next (s.sampleTrig level) = _
    simp [State.sampleTrig, State.isTrigEdge, hreset]
  · exact congrArg Host.Outcome.next (s.timeOut_of_not_due (by simp [State.timeoutDue, hreset]))
  · refine congrArg Host.Outcome.next (s.endRow_of_not_due ?_)
    rw [← Bool.not_eq_true, s.rowEndDue_iff]
    rintro ⟨row, hhigh, -⟩
    simp [hreset] at hhigh

end Sys2Proof.Machine
end

section
/-! The three resets: what each leaves of every block, and the reset column of the register map (R9, R134, R167, R176, R177). -/

namespace Sys2Proof.Machine

/-! ### Keepers -/

/-- The keeper of an undriven lane: the level the unit under test drives, else the level held (R127, R134). -/
theorem keeper_of_undriven {u v : LaneUnit} (h : KeepersHold u v) {n : Lane} (hdriver : v.driver n = none)
    (hn : u.pinLevel n ≠ none ∨ v.pull n = u.pull n) : v.keeper.get n = (uutLevel (v.uut.get n)).getD (u.keeper.get n) := by
  rw [h n hn, hdriver]
  rfl

theorem LaneUnit.driver_released {u : LaneUnit} (h : u.effective = Lanes.all .released) (n : Lane) : u.driver n = none := by
  simp [LaneUnit.driver, h, LaneState.driven]

/-- While RESET_N is low drivers and terminations are off (R134). -/
theorem LaneUnit.off_of_inactive {u : LaneUnit} (h : u.active = false) (n : Lane) : u.driver n = none ∧ u.pull n = none := by
  simp [LaneUnit.driver, LaneUnit.pull, h]

/-- A pin with no termination on it is at a level (R127). -/
theorem LaneUnit.pinLevel_of_no_pull {u : LaneUnit} {n : Lane} (h : u.pull n = none) : u.pinLevel n ≠ none := by
  unfold LaneUnit.pinLevel LaneUnit.pinLevelFrom
  rw [h]
  cases u.driver n <;> cases uutLevel (u.uut.get n) <;> simp

/-! ### POWER_ON, RESET_N_ASSERT and RESET_N_RELEASE -/

/-- Settles O4: the blocks are those of the power-on values; the keepers start from low on released lanes. -/
theorem powerOnSetsEveryBlock : Obligations.PowerOnSetsEveryBlock := by
  unfold Obligations.PowerOnSetsEveryBlock
  intro s
  refine ⟨_, rfl, rfl, rfl, rfl, rfl, rfl, rfl, rfl, rfl, rfl, rfl, rfl, rfl, rfl, rfl, rfl, rfl, fun n => ?_⟩
  have hhold : KeepersHold { LaneUnit.reset with uut := s.lanes.uut, active := !s.pins.resetLow } s.lanesAtPowerOn :=
    LaneUnit.settle_keepersHold _ _ _
  have hkeeper := keeper_of_undriven hhold (n := n) (LaneUnit.driver_released rfl n) (.inr (LaneUnit.pull_settle _ _ _ n))
  have hlow : LaneUnit.reset.keeper.get n = false := Lanes.get_all false n
  rw [hlow] at hkeeper
  exact hkeeper

/-- Settles O5: each block by its own frame; drivers and terminations by the lane unit that is not active. -/
theorem resetAssertStopsEverything : Obligations.ResetAssertStopsEverything := by
  unfold Obligations.ResetAssertStopsEverything
  intro s
  refine ⟨s.assertReset, rfl, ?_, rfl, rfl, rfl, rfl, rfl, rfl, rfl, rfl, rfl, LaneUnit.off_of_inactive rfl, rfl, rfl, rfl,
    LaneUnit.settle_keepersHold _ _ _, LaneUnit.settle_keepersFollow _ _ _, s.assertReset.outputs_of_reset rfl⟩
  intro p hp
  cases p <;> simp_all [Part.same, State.assertReset]

/-- Settles O6: the blocks are those of the power-on values; with drivers and terminations off every pin was at a level, so each keeper
goes on from the level it held. -/
theorem releaseBeginsTheSweep : Obligations.ReleaseBeginsTheSweep := by
  unfold Obligations.ReleaseBeginsTheSweep
  intro s
  refine ⟨fun hreset hinactive => ?_, fun hhigh => ?_⟩
  · have hrelease : s.releaseReset = ({ s with pins := { s.pins with resetLow := false } }).powerOnValues s.lanesAtRelease :=
      if_pos hreset
    refine ⟨_, congrArg Host.Outcome.next hrelease, rfl, rfl, rfl, rfl, rfl, rfl, rfl, rfl, rfl, rfl, rfl, rfl, rfl, rfl, rfl, rfl,
      fun n => ?_⟩
    have hhold : KeepersHold s.lanes s.lanesAtRelease := LaneUnit.settle_keepersHold _ _ _
    exact keeper_of_undriven hhold (LaneUnit.driver_released rfl n)
      (.inl (LaneUnit.pinLevel_of_no_pull (LaneUnit.off_of_inactive hinactive n).2))
  · show Host.Outcome.next s.releaseReset = _
    simp [State.releaseReset, hhigh]

/-! ### The end of a fill by FILL ABORT or SOFT RESET -/

/-- What FILL ABORT and SOFT RESET leave of a fill is what R17 and R18 say. -/
theorem fillEnded_fillAfterAbort (p : PatternMemory) (n : Nat) : FillEnded p { p with fill := p.fillAfterAbort n } := by
  refine ⟨rfl, ?_⟩
  cases hf : p.fill with
  | none => exact p.fillAfterAbort_none n hf
  | some f =>
    refine ⟨?_, fun he hc => p.fillAfterAbort_of_commits n f hf he hc⟩
    cases he : f.ending with
    | true =>
      refine .inl ((p.fillAfterAbort_ending n f hf he).trans (congrArg some ?_))
      rw [← he]
    | false =>
      rcases p.fillAfterAbort_cases n with hnone | ⟨g, hg, hsome⟩
      · exact .inr ⟨hnone, rfl⟩
      · obtain rfl := Option.some.inj (hf.symm.trans hg)
        exact .inl hsome

/-- A fill left by FILL ABORT or SOFT RESET is ending (R17, R18). -/
theorem ending_of_fillAfterAbort {p : PatternMemory} {n : Nat} {f : Fill} (h : p.fillAfterAbort n = some f) : f.ending = true := by
  rcases p.fillAfterAbort_cases n with hnone | ⟨g, -, hsome⟩
  · rw [hnone] at h
    cases h
  · rw [hsome] at h
    cases h
    rfl

/-- The fill row write of an ending fill writes its row and ends it without FILLDONE (R17, R18). -/
theorem State.fillRow_ending {s : State} {f : Fill} (hf : s.pm.fill = some f) (he : f.ending = true) (hc : s.pm.commits = []) :
    s.fillRow = lastRowWritten s f := by
  simp [State.fillRow, hf, he, hc, lastRowWritten]

/-- Settles O14: the fill that FILL ABORT leaves, if any, is ending, and its row write is its last. -/
theorem fillAbortEndsAfterTheRowBegun : Obligations.FillAbortEndsAfterTheRowBegun := by
  unfold Obligations.FillAbortEndsAfterTheRowBegun
  intro s hready
  have hexec : exec .fillAbort s = .next (s.fillAbort.1.report s.fillAbort.2) := congrArg Host.Outcome.next (s.command_ready _ hready)
  have again {f : Fill} (hf : s.pm.fill = some f) (he : f.ending = true) : s.fillAbort = (s, .accepted) := by
    simp [State.fillAbort, hf, he]
  refine ⟨fun hnone => ?_, fun hsome => ?_, fun f hf he => ?_⟩
  · rw [hexec]
    simp [State.fillAbort, hnone]
  · obtain ⟨f, hf⟩ := Option.isSome_iff_exists.1 hsome
    have hleft : ∃ n, s.fillAbort.2 = .accepted ∧
        s.fillAbort.1 = { s with pm := { s.pm with fill := s.pm.fillAfterAbort s.free }, free := n } := by
      cases he : f.ending with
      | true =>
        refine ⟨s.free, by rw [again hf he], ?_⟩
        rw [again hf he, s.pm.fillAfterAbort_ending s.free f hf he, ← hf]
      | false => exact ⟨s.free + 1, by simp [State.fillAbort, hf, he], by simp [State.fillAbort, hf, he]⟩
    obtain ⟨n, houtcome, hstate⟩ := hleft
    rw [houtcome, hstate] at hexec
    refine ⟨_, hexec, fillEnded_fillAfterAbort s.pm s.free, rfl, ?_, fun g hg hc => congrArg Host.Outcome.next (State.fillRow_ending hg ?_ hc)⟩
    · intro p hp
      cases p <;> simp_all [Part.same]
    · exact ending_of_fillAfterAbort hg
  · rw [hexec, again hf he]

/-! ### SOFT RESET -/

/-- With RESET_N high every read is answered (R165). -/
theorem State.readReg_high {t : State} (h : t.pins.resetLow = false) (addr : Addr) : t.readReg addr = some (t.regWord addr) := by
  simp [State.readReg, h]

/-- Settles O8: each block by its own reset, the fill by what R18 leaves of it, the lanes as one request. -/
theorem softResetTakesEveryBlock : Obligations.SoftResetTakesEveryBlock := by
  unfold Obligations.SoftResetTakesEveryBlock
  intro s hready
  have hexec : exec .softReset s = .next (s.softReset.report .accepted) := congrArg Host.Outcome.next (s.command_ready _ hready)
  have hhigh : (s.softReset.report .accepted).pins.resetLow = false := hready.1
  refine ⟨_, hexec, fillEnded_fillAfterAbort s.pm s.free, rfl, rfl, rfl, rfl, rfl, rfl, rfl, rfl, ?_, rfl, rfl, rfl, rfl, rfl,
    LaneUnit.settle_keepersHold _ _ _, ?_, ?_, ?_, ?_, State.readReg_high hhigh 0x00, State.readReg_high hhigh 0x01,
    fun f hf hc => congrArg Host.Outcome.next (State.fillRow_ending hf (ending_of_fillAfterAbort hf) hc)⟩
  · intro p hp
    cases p <;> simp_all [Part.same, State.softReset]
  · simp [State.irqLow, State.softReset, EventUnit.reset]
  · simp [State.runningPin, State.softReset, RunControl.reset, SeqState.running]
  · simp [State.passmarkPin, State.softReset, RunControl.reset]
  · simp [State.markPin, State.softReset, Playback.reset]

/-! ### The reset column -/

/-- Every block that the reset column reads is at its reset value. -/
structure AtReset (t : State) : Prop where
  resetHigh : t.pins.resetLow = false
  window : t.window = .reset
  queue : t.queue = .reset
  timebase : t.timebase = .reset
  run : t.run = .reset
  play : t.play = .reset
  compare : t.compare = .reset
  events : t.events = .reset
  effective : t.lanes.effective = Lanes.all .released
  park : t.lanes.park = Lanes.all .release
  term : t.lanes.term = Lanes.all .none

/-- Two states with every block at its reset value read the same, but for STATUS, OUTCOME, DATA and LANE_IN. -/
theorem AtReset.regWord_eq {s t : State} (hs : AtReset s) (ht : AtReset t) {addr : Addr} (hstatus : addr ≠ 0x02)
    (houtcome : addr ≠ 0x04) (hdata : addr ≠ 0x0E) (hlane : addr ≠ 0x2D) : t.regWord addr = s.regWord addr := by
  unfold State.regWord
  split
  case h_3 ha => exact absurd (BitVec.eq_of_toNat_eq ha) hstatus
  case h_4 ha => exact absurd (BitVec.eq_of_toNat_eq ha) houtcome
  case h_13 ha => exact absurd (BitVec.eq_of_toNat_eq ha) hdata
  case h_36 ha => exact absurd (BitVec.eq_of_toNat_eq ha) hlane
  all_goals simp only [State.laneDrive, hs.window, ht.window, hs.queue, ht.queue, hs.timebase, ht.timebase, hs.run, ht.run, hs.play,
    ht.play, hs.compare, ht.compare, hs.events, ht.events, hs.effective, ht.effective, hs.park, ht.park, hs.term, ht.term]

theorem atReset_reset : AtReset State.reset := ⟨rfl, rfl, rfl, rfl, rfl, rfl, rfl, rfl, rfl, rfl, rfl⟩

/-- The reset column holds none of the four registers whose reset value is not one word. -/
theorem resetColumn_addr : ∀ p ∈ resetColumn, p.1 ≠ 0x02 ∧ p.1 ≠ 0x04 ∧ p.1 ≠ 0x0E ∧ p.1 ≠ 0x2D := by simp [resetColumn]

theorem reset_readReg : ∀ p ∈ resetColumn, State.reset.regWord p.1 = p.2 := by
  iterate 43 refine List.forall_mem_cons.2 ⟨rfl, ?_⟩
  exact List.forall_mem_nil _

/-- With every block at its reset value each register of the column reads its reset value (R167). -/
theorem AtReset.reads {t : State} (h : AtReset t) : ∀ p ∈ resetColumn, t.readReg p.1 = some p.2 := by
  intro p hp
  obtain ⟨hstatus, houtcome, hdata, hlane⟩ := resetColumn_addr p hp
  rw [State.readReg_high h.resetHigh, atReset_reset.regWord_eq h hstatus houtcome hdata hlane, reset_readReg p hp]

/-- During the sweep at reset STATUS reads 0x0040 (R167, R171). -/
theorem AtReset.statusWord_sweep {t : State} (h : AtReset t) (hsweep : t.pm.sweep = some 0) (hfill : t.pm.fill = none) :
    t.statusWord = 0x0040 := by
  rw [State.statusWord, hsweep, hfill, h.run, h.play]
  rfl

theorem outcomeWord_accepted {b : HostBus} (houtcome : b.outcome = .accepted) (hserial : b.serial = 0) : b.outcomeWord = 0 := by
  rw [HostBus.outcomeWord, houtcome, hserial]
  rfl

/-- Settles O9: the column by the blocks at their reset values; STATUS, OUTCOME and EVENTS by what each reset leaves of their fields. -/
theorem registersReadTheirResetColumn : Obligations.RegistersReadTheirResetColumn := by
  unfold Obligations.RegistersReadTheirResetColumn
  refine ⟨atReset_reset.reads, rfl, rfl, rfl, fun s hreset => ?_, fun s hready hfill => ?_⟩
  · have hrelease : s.releaseReset = ({ s with pins := { s.pins with resetLow := false } }).powerOnValues s.lanesAtRelease :=
      if_pos hreset
    have h : AtReset (({ s with pins := { s.pins with resetLow := false } } : State).powerOnValues s.lanesAtRelease) :=
      ⟨rfl, rfl, rfl, rfl, rfl, rfl, rfl, rfl, rfl, rfl, rfl⟩
    refine ⟨_, congrArg Host.Outcome.next hrelease, h.reads, ?_, ?_, ?_⟩
    · rw [State.readReg_high h.resetHigh]
      refine congrArg some ?_
      show State.statusWord _ = 0x0040
      exact h.statusWord_sweep rfl rfl
    · rw [State.readReg_high h.resetHigh]
      exact congrArg some (outcomeWord_accepted rfl rfl)
    · rw [State.readReg_high h.resetHigh]
      exact congrArg (fun u : EventUnit => some u.flags) h.events
  · have hexec : exec .softReset s = .next (s.softReset.report .accepted) := congrArg Host.Outcome.next (s.command_ready _ hready)
    have h : AtReset (s.softReset.report .accepted) := ⟨hready.1, rfl, rfl, rfl, rfl, rfl, rfl, rfl, rfl, rfl, rfl⟩
    have hsweep : (s.softReset.report .accepted).pm.sweep = none := hready.2
    have hnone : (s.softReset.report .accepted).pm.fill = none := s.pm.fillAfterAbort_none s.free hfill
    refine ⟨_, hexec, h.reads, ?_, ?_⟩
    · rw [State.readReg_high h.resetHigh]
      refine congrArg some ?_
      show (s.softReset.report .accepted).statusWord = 0
      rw [State.statusWord, hsweep, hnone, h.run, h.play]
      rfl
    · rw [State.readReg_high h.resetHigh]
      exact congrArg (fun u : EventUnit => some u.flags) h.events

end Sys2Proof.Machine
end

section
/-! The requests that pattern memory refuses, and the run control commands by state (R14, R28, R67, R83, R92, R95). -/

namespace Sys2Proof.Machine

/-! ### Transfers and commands during a fill -/

/-- A refused DATA write raises ACCERR and does nothing else (R28). -/
theorem exec_dataWrite_refused {s : State} (hreset : s.pins.resetLow = false) (h : s.writeRefused = true) (word : Word) :
    exec (.dataWrite word) s = .next (s.raise .accErr) := by
  show Host.Outcome.next (s.busCycle _) = _
  simp [State.busCycle, hreset, State.writeData, h]

/-- A refused DATA read returns 0x0000 and raises ACCERR (R28). -/
theorem exec_dataRead_refused {s : State} (hreset : s.pins.resetLow = false) (h : s.readRefused = true) :
    exec .dataRead s = .next ({ s with bus := { s.bus with readWord := some 0 } }.raise .accErr) := by
  show Host.Outcome.next (s.busCycle _) = _
  simp [State.busCycle, hreset, State.readData, h, State.answerRead]

theorem State.writeRefused_iff (s : State) : s.writeRefused = true ↔
    s.pm.sweep.isSome = true ∨ s.pm.fill.isSome = true ∨ (s.window.eff.mode.target = .direct ∧ s.pm.commits ≠ []) := by
  simp [State.writeRefused, or_assoc]

theorem State.readRefused_iff (s : State) : s.readRefused = true ↔
    s.pm.sweep.isSome = true ∨ s.pm.fill.isSome = true ∨ s.pm.commits ≠ [] := by
  simp [State.readRefused, or_assoc]

/-- Settles O22: the window's test of a transfer is the condition of R28. -/
theorem refusedTransferChangesNothing : Obligations.RefusedTransferChangesNothing := by
  unfold Obligations.RefusedTransferChangesNothing
  intro s hreset
  exact ⟨fun h => exec_dataWrite_refused hreset (s.writeRefused_iff.2 h), fun h => exec_dataRead_refused hreset (s.readRefused_iff.2 h)⟩

theorem State.commitCommand_busy {s : State} (h : s.pm.fill.isSome = true) : s.commitCommand = (s, .refusedBusy) := by
  simp [State.commitCommand, h]

/-- Settles O17: each owner tests the fill first. -/
theorem duringAFillRequestsAreRefused : Obligations.DuringAFillRequestsAreRefused := by
  unfold Obligations.DuringAFillRequestsAreRefused
  intro s hready hfill
  have busy {f : State → State × CmdOutcome} (h : f s = (s, .refusedBusy)) : s.command f = s.report .refusedBusy := by
    rw [s.command_ready f hready, h]
  exact ⟨exec_dataWrite_refused hready.1 (s.writeRefused_iff.2 (.inr (.inl hfill))),
    exec_dataRead_refused hready.1 (s.readRefused_iff.2 (.inr (.inl hfill))),
    congrArg Host.Outcome.next (busy (State.setWindow_busy hfill)), congrArg Host.Outcome.next (busy (State.seek_busy hfill)),
    congrArg Host.Outcome.next (busy (s.fillCommand_busy hfill)), congrArg Host.Outcome.next (busy (State.commitCommand_busy hfill))⟩

/-! ### ARM -/

theorem State.armCommand_invalid {s : State} (hseq : s.run.seq = .idle) (h : ¬ValidLayout s.run) :
    s.armCommand = (s, .refusedLayout) := by
  rw [← s.run.layoutValid_iff] at h
  simp [State.armCommand, hseq, h]

theorem State.armCommand_valid {s : State} (hseq : s.run.seq = .idle) (h : ValidLayout s.run) :
    s.armCommand = (({ s with run := { s.run with seq := .armed } }).parkLanes, .accepted) := by
  rw [← s.run.layoutValid_iff] at h
  simp [State.armCommand, hseq, h]

theorem State.armCommand_refused {s : State} (hseq : s.run.seq ≠ .idle) : s.armCommand = (s, .refusedState) := by
  unfold State.armCommand
  cases h : s.run.seq with
  | idle => exact absurd h hseq
  | armed | head | loop | tail | halted => rfl

/-- Settles O36: by the state and the layout; an accepted ARM is a park request in ARMED. -/
theorem armLocksAValidLayout : Obligations.ArmLocksAValidLayout := by
  unfold Obligations.ArmLocksAValidLayout
  intro s
  refine ⟨fun hreset hsweep => congrArg Host.Outcome.next (s.command_sweep _ hreset hsweep), fun hready => ?_⟩
  have hexec : exec .arm s = .next (s.armCommand.1.report s.armCommand.2) := congrArg Host.Outcome.next (s.command_ready _ hready)
  refine ⟨fun hseq hlayout => ?_, fun hseq hlayout => ?_, fun hseq => ?_⟩
  · rw [hexec, State.armCommand_invalid hseq hlayout]
  · rw [State.armCommand_valid hseq hlayout] at hexec
    refine ⟨_, hexec, by simp, State.parkLanes_take { s with run := { s.run with seq := .armed } }, by simp, ?_⟩
    intro p hp
    cases p <;> simp_all [Part.same]
  · rw [hexec, State.armCommand_refused hseq]

/-! ### STOP -/

/-- Settles O37: by the state; in ARMED the timebase stands still already, so STOP is a park request in IDLE. -/
theorem stopMarksTheRun : Obligations.StopMarksTheRun := by
  unfold Obligations.StopMarksTheRun
  intro s
  have hexec (hready : Ready s) : exec .stop s = .next (s.stopCommand.1.report s.stopCommand.2) :=
    congrArg Host.Outcome.next (s.command_ready _ hready)
  refine ⟨fun hready hseq => ?_, fun hready hseq => ?_, fun hready hseq => ?_, fun hready htime hseq => ?_, fun hreset hsweep => ?_⟩
  · rw [hexec hready]
    rcases hseq with hseq | hseq <;> simp [State.stopCommand, hseq]
  · rw [hexec hready]
    rcases hseq with hseq | hseq <;> simp [State.stopCommand, hseq]
  · rw [hexec hready]
    simp [State.stopCommand, hseq]
  · have hstop : s.stopCommand = (({ s with run := { s.run with seq := .idle } }).parkLanes, .accepted) := by
      have hstill : s.timebase.stop = s.timebase := htime.stop_eq (by simp [hseq, SeqState.running])
      simp only [State.stopCommand, hseq, State.stopTimebase, State.parkLanes_frame, hstill]
      rfl
    have h := hexec hready
    rw [hstop] at h
    refine ⟨_, h, by simp, State.parkLanes_take { s with run := { s.run with seq := .idle } }, by simp, ?_⟩
    intro p hp
    cases p <;> simp_all [Part.same]
  · exact congrArg Host.Outcome.next (s.command_sweep _ hreset hsweep)

/-! ### ABORT -/

/-- The end of a run and ABORT park, stop the timebase and discard the row (R91, R95). -/
theorem State.toIdle_ended (s : State) : RunEnded s s.toIdle s.run ∧ SameBut [.timebase, .run, .play, .lanes, .free] s s.toIdle := by
  refine ⟨⟨by simp, ?_, by simp [Timebase.stop], by simp⟩, ?_⟩
  · exact State.parkLanes_take { s with run := { s.run with seq := .idle, stopMark := false, pendingOffset := none } }
  · intro p hp
    cases p <;> simp_all [Part.same]

/-- A run that has ended plays no more: RUNNING is low (R80). -/
theorem runningPin_of_ended {s t : State} {r : RunControl} (h : RunEnded s t r) : t.runningPin = false := by
  obtain ⟨hrun, -⟩ := h
  simp [State.runningPin, hrun, SeqState.running]

/-- Settles O38: ABORT is the end of a run without DONE. -/
theorem abortEndsAtOnce : Obligations.AbortEndsAtOnce := by
  unfold Obligations.AbortEndsAtOnce
  intro s
  have hexec (hready : Ready s) : exec .abort s = .next (s.abortCommand.1.report s.abortCommand.2) :=
    congrArg Host.Outcome.next (s.command_ready _ hready)
  refine ⟨fun hready hseq => ?_, fun hready hseq => ?_, fun hreset hsweep => ?_⟩
  · rw [hexec hready]
    simp [State.abortCommand, hseq]
  · have habort : s.abortCommand = (s.toIdle, .accepted) := by
      unfold State.abortCommand
      cases h : s.run.seq with
      | idle => exact absurd h hseq
      | armed | head | loop | tail | halted => rfl
    have h := hexec hready
    rw [habort] at h
    obtain ⟨hended, hframe⟩ := s.toIdle_ended
    refine ⟨_, h, hended, by simp, runningPin_of_ended hended, ?_⟩
    exact SameBut.mono (SameBut.trans hframe (sameBut_report _ _)) (by simp)
  · exact congrArg Host.Outcome.next (s.command_sweep _ hreset hsweep)

/-! ### Ticks outside a run -/

/-- Settles O33: without cycles for the timebase there is no tick; under an application the period is held back. -/
theorem tickOnlyInARunAndHeldBack : Obligations.TickOnlyInARunAndHeldBack := by
  unfold Obligations.TickOnlyInARunAndHeldBack
  intro s
  refine ⟨fun htime hseq => ?_, fun hstill => ?_, fun htakes hcommits => ?_⟩
  · have hcounting : s.timebase.counting = false := by
      rw [htime.counting]
      rcases hseq with hseq | hseq | hseq <;> rw [hseq] <;> rfl
    exact exec_tick_of_not_takesCycles (by simp [State.takesCycles, hcounting])
  · refine exec_tick_of_not_takesCycles ?_
    rcases hstill with hstill | hstill <;> simp [State.takesCycles, hstill]
  · show Host.Outcome.next s.completePeriod = _
    simp [State.completePeriod, htakes, hcommits, Timebase.holdBack, Timebase.division, Timebase.periodLength]

end Sys2Proof.Machine
end

section
/-! A whole walk meets every place of the window, and no place twice (R24, R25, R26). -/

namespace Sys2Proof.Machine

section
variable {w : Window} {p q : Place} {i j i' j' k k' : Nat}

/-! ### Places by their rows and lanes from the origin -/

/-- The rows and lanes from the origin name one place. -/
theorem Window.Stands.place_eq (hp : w.Stands p i j) (hq : w.Stands q i j) : p = q := by
  have hrow : p.row = q.row := Fin.ext (hp.row.trans hq.row.symm)
  have hlane : p.lane = q.lane := Fin.ext (hp.lane.trans hq.lane.symm)
  cases p
  cases q
  simp_all

/-- A place has one row and one lane from the origin. -/
theorem Window.Stands.index_eq (h : w.Stands p i j) (h' : w.Stands p i' j') (hi : i < w.rowCount) (hi' : i' < w.rowCount) :
    i = i' ∧ j = j' := by
  have hrow := h.row.symm.trans h'.row
  have hlane := h.lane.symm.trans h'.lane
  unfold Window.rowCount at hi hi'
  unfold Window.walkRow at hrow
  split at hrow <;> omega

/-- The places within R rows and L lanes from the origin are those of the window. -/
theorem Window.Stands.within (h : w.Stands p i j) (hw : w.Ordered) (hi : i < w.rowCount) (hj : j < w.laneCount) :
    (w.rowStart ≤ p.row ∧ p.row ≤ w.rowEnd) ∧ w.laneStart ≤ p.lane ∧ p.lane ≤ w.laneEnd := by
  have hrow := h.row
  have hlane := h.lane
  have hrows : w.rowStart.val ≤ w.rowEnd.val := hw.rows
  have hlanes : w.laneStart.val ≤ w.laneEnd.val := hw.lanes
  simp only [Fin.le_def]
  unfold Window.rowCount at hi
  unfold Window.laneCount at hj
  unfold Window.walkRow at hrow
  split at hrow <;> omega

theorem Window.exists_stands (hrow : w.rowStart ≤ p.row ∧ p.row ≤ w.rowEnd)
    (hlane : w.laneStart ≤ p.lane ∧ p.lane ≤ w.laneEnd) :
    ∃ i j, i < w.rowCount ∧ j < w.laneCount ∧ w.Stands p i j := by
  simp only [Fin.le_def] at hrow hlane
  refine ⟨if w.mode.direction = .ascending then p.row.val - w.rowStart.val else w.rowEnd.val - p.row.val,
    p.lane.val - w.laneStart.val, ?_, ?_, ?_, ?_⟩
  · unfold Window.rowCount
    split <;> omega
  · unfold Window.laneCount
    omega
  · unfold Window.walkRow
    split <;> omega
  · omega

/-! ### The walk's index -/

/-- Short of the walk's length the index stays within R rows and L lanes. -/
theorem Window.walkIndex_lt (hk : k < w.walkLength) : (w.walkIndex k).1 < w.rowCount ∧ (w.walkIndex k).2 < w.laneCount := by
  have hR : 0 < w.rowCount := Nat.succ_pos _
  have hL : 0 < w.laneCount := Nat.succ_pos _
  unfold Window.walkLength at hk
  unfold Window.walkIndex
  split
  case h_1 hp _ =>
    rw [if_pos hp] at hk
    exact ⟨Nat.div_lt_of_lt_mul (by rwa [Nat.mul_comm]), Nat.mod_lt k hL⟩
  case h_2 hp _ =>
    rw [if_pos hp] at hk
    exact ⟨Nat.mod_lt k hR, Nat.div_lt_of_lt_mul hk⟩
  case h_3 hp =>
    rw [if_neg (by simp [hp])] at hk
    exact ⟨hk, hL⟩

/-- Two moves with one index are one move. -/
theorem Window.walkIndex_inj (h : w.walkIndex k = w.walkIndex k') : k = k' := by
  have by_div_mod {n : Nat} (hdiv : k / n = k' / n) (hmod : k % n = k' % n) : k = k' := by
    rw [← Nat.div_add_mod k n, ← Nat.div_add_mod k' n, hdiv, hmod]
  unfold Window.walkIndex at h
  split at h
  · exact by_div_mod (congrArg Prod.fst h) (congrArg Prod.snd h)
  · exact by_div_mod (congrArg Prod.snd h) (congrArg Prod.fst h)
  · exact congrArg Prod.fst h

/-- Every row and lane from the origin is the index of a move; in the plane of attributes the lane stays 0. -/
theorem Window.exists_walkIndex (hi : i < w.rowCount) (hj : j < w.laneCount) (hattributes : w.mode.plane = .attributes → j = 0) :
    ∃ k < w.walkLength, w.walkIndex k = (i, j) := by
  have place {a b m n : Nat} (ha : a < m) (hb : b < n) : n * a + b < m * n ∧ (n * a + b) / n = a ∧ (n * a + b) % n = b := by
    refine ⟨?_, by rw [Nat.mul_add_div (by omega), Nat.div_eq_of_lt hb, Nat.add_zero], by
      rw [Nat.mul_add_mod, Nat.mod_eq_of_lt hb]⟩
    calc n * a + b < n * a + n := by omega
      _ = (a + 1) * n := by rw [Nat.succ_mul, Nat.mul_comm]
      _ ≤ m * n := Nat.mul_le_mul_right n ha
  cases hp : w.mode.plane with
  | attributes =>
    rw [hattributes hp]
    exact ⟨i, by rwa [Window.walkLength_attributes hp], by simp [Window.walkIndex, hp]⟩
  | cells =>
    rw [Window.walkLength_cells hp]
    cases ht : w.mode.traversal with
    | laneFirst =>
      obtain ⟨hlt, hdiv, hmod⟩ := place hi hj
      exact ⟨_, hlt, by simp [Window.walkIndex, hp, ht, hdiv, hmod]⟩
    | rowFirst =>
      obtain ⟨hlt, hdiv, hmod⟩ := place hj hi
      exact ⟨_, by rwa [Nat.mul_comm], by simp [Window.walkIndex, hp, ht, hdiv, hmod]⟩

/-! ### The whole walk -/

/-- Two moves of one walk that stand at one place are one move. -/
theorem Window.StandsAt.unique (h : w.StandsAt p k) (h' : w.StandsAt p k') (hk : k < w.walkLength) (hk' : k' < w.walkLength) :
    k = k' := by
  obtain ⟨hrow, hlane⟩ := Window.Stands.index_eq h h' (Window.walkIndex_lt hk).1 (Window.walkIndex_lt hk').1
  exact Window.walkIndex_inj (Prod.ext hrow hlane)

/-- The places of a whole walk are those of the window; in the plane of attributes those at the lane start (R26). -/
theorem Window.exists_after_iff (hw : w.Ordered) : (∃ k < w.walkLength, w.after w.origin k = p) ↔
    w.rowStart ≤ p.row ∧ p.row ≤ w.rowEnd ∧
    (if w.mode.plane = .cells then w.laneStart ≤ p.lane ∧ p.lane ≤ w.laneEnd else p.lane = w.laneStart) := by
  constructor
  · rintro ⟨k, hk, rfl⟩
    have h : w.StandsAt _ k := w.standsAt_after hw hk
    obtain ⟨hi, hj⟩ := Window.walkIndex_lt hk
    obtain ⟨⟨hlow, hhigh⟩, hlanes⟩ := Window.Stands.within h hw hi hj
    refine ⟨hlow, hhigh, ?_⟩
    cases hp : w.mode.plane with
    | cells => simpa using hlanes
    | attributes =>
      rw [Window.standsAt_attributes hp] at h
      simpa using Fin.ext h.lane
  · rintro ⟨hlow, hhigh, hlane⟩
    have hlanes : w.laneStart ≤ p.lane ∧ p.lane ≤ w.laneEnd := by
      split at hlane
      · exact hlane
      · rw [hlane]
        exact ⟨le_rfl, hw.lanes⟩
    obtain ⟨i, j, hi, hj, hstands⟩ := Window.exists_stands ⟨hlow, hhigh⟩ hlanes
    obtain ⟨k, hk, hindex⟩ := Window.exists_walkIndex hi hj fun hp => by
      have hj := hstands.lane
      rw [if_neg (by simp [hp])] at hlane
      rw [hlane] at hj
      omega
    refine ⟨k, hk, Window.Stands.place_eq (i := i) (j := j) ?_ hstands⟩
    have h : w.StandsAt _ k := w.standsAt_after hw hk
    rwa [Window.StandsAt, hindex] at h

end

/-- Settles O21: the walk's index is one-to-one and onto the rows and lanes of the window. -/
theorem walkMeetsEveryPlaceOnce : Obligations.WalkMeetsEveryPlaceOnce := by
  unfold Obligations.WalkMeetsEveryPlaceOnce
  intro w hrows hlanes rows lanes walk
  have hw : w.Ordered := ⟨hrows, hlanes⟩
  have hwalk : walk = (List.range w.walkLength).map (w.after w.origin) := w.places_eq_map _ _
  rw [hwalk]
  refine ⟨List.Nodup.map_on (fun k hk k' hk' he => ?_) List.nodup_range, fun p => ?_⟩
  · rw [List.mem_range] at hk hk'
    exact (w.standsAt_after hw hk).unique (he ▸ w.standsAt_after hw hk') hk hk'
  · simp only [List.mem_map, List.mem_range]
    exact Window.exists_after_iff hw

end Sys2Proof.Machine
end

section
/-! The initialization sweep (R9, R11) and the steps on an empty queue that carry it on (R178). -/

namespace Sys2Proof.Machine

/-! ### One sweep row write -/

theorem State.sweepRow_goesOn {s : State} {r : RowNum} (h : s.pm.sweep = some r) (hr : r ≠ 4095) :
    s.sweepRow = { s with pm := { s.pm with rows := s.pm.rows.writeRow r .reset, sweep := some (r + 1) } } := by
  simp [State.sweepRow, h, hr]

theorem State.sweepRow_ends {s : State} (h : s.pm.sweep = some 4095) :
    s.sweepRow = { s with
      pm := { s.pm with rows := s.pm.rows.writeRow 4095 .reset, sweep := none }
      events := s.events.raise .initDone } := by
  simp [State.sweepRow, h, State.raise]

/-- Settles O11: the row write by the rule of a row read after a row write, on both sides of the last row. -/
theorem sweepRowWriteClearsItsRow : Obligations.SweepRowWriteClearsItsRow := by
  unfold Obligations.SweepRowWriteClearsItsRow
  intro s r hsweep
  by_cases hr : r = 4095
  · subst hr
    refine ⟨_, congrArg Host.Outcome.next (State.sweepRow_ends hsweep), fun q => s.pm.rows.row_writeRow 4095 q .reset, rfl, rfl, rfl,
      raises_raise rfl (by simp), ?_⟩
    intro p hp
    cases p <;> simp_all [Part.same]
  · refine ⟨_, congrArg Host.Outcome.next (State.sweepRow_goesOn hsweep hr), fun q => s.pm.rows.row_writeRow r q .reset,
      by simp [hr], rfl, rfl, raises_of_events rfl (by simp [hr]), ?_⟩
    intro p hp
    cases p <;> simp_all [Part.same]

/-! ### The rows that k row writes leave -/

/-- PM after the first k row writes of a sweep (R9). -/
def Memory.sweep (m : Memory) : Nat → Memory
  | 0 => m
  | k + 1 => (m.sweep k).writeRow (RowNum.ofSum k) .reset

theorem Memory.sweep_succ (m : Memory) (k : Nat) : m.sweep (k + 1) = (m.sweep k).writeRow (RowNum.ofSum k) .reset := rfl

theorem Memory.row_sweep (m : Memory) {k : Nat} (hk : k ≤ 4096) (q : RowNum) :
    (m.sweep k).row q = if q.val < k then .reset else m.row q := by
  induction k with
  | zero => rfl
  | succ k ih =>
    have hval : (RowNum.ofSum k).val = k := RowNum.val_ofSum hk
    rw [Memory.sweep_succ, Memory.row_writeRow, ih (by omega)]
    simp only [Fin.ext_iff, hval]
    by_cases hq : q.val = k
    · simp [hq]
    · rw [if_neg hq]
      exact if_congr (by omega) rfl rfl

theorem Memory.wf_sweep {m : Memory} (h : m.wf = true) (k : Nat) : (m.sweep k).wf = true := by
  induction k with
  | zero => exact h
  | succ k ih => exact Memory.wf_writeRow _ _ ih

/-- A canonical memory whose rows all hold the reset contents lists no row. -/
theorem Memory.eq_nil_of_row_reset {m : Memory} (h : m.wf = true) (hrow : ∀ q, m.row q = .reset) : m = [] := by
  cases m with
  | nil => rfl
  | cons e m =>
    obtain ⟨hlt, hne⟩ := ((Memory.wf_iff _).1 h).2 e List.mem_cons_self
    have hfirst : Memory.row (e :: m) ⟨e.1, hlt⟩ = e.2 := by simp [Memory.row, Memory.lookup]
    exact absurd (hfirst.symm.trans (hrow _)) hne

/-- The write of the last row leaves no row other than its reset contents (R9). -/
theorem Memory.sweep_all {m : Memory} (h : m.wf = true) {k : Nat} (hk : k + 1 = 4096) :
    (m.sweep k).writeRow (RowNum.ofSum k) .reset = [] := by
  rw [← m.sweep_succ]
  refine Memory.eq_nil_of_row_reset (Memory.wf_sweep h _) fun q => ?_
  rw [Memory.row_sweep m hk.le, if_pos (by have := q.isLt; omega)]

/-- PM with the sweep at row k and the rows before it written. -/
def PatternMemory.swept (p : PatternMemory) (k : Nat) : PatternMemory :=
  { p with rows := p.rows.sweep k, sweep := some (RowNum.ofSum k) }

/-- One row write of the sweep at row k, before the last row. -/
theorem State.sweepRow_swept {s : State} {p : PatternMemory} {k : Nat} (h : s.pm = p.swept k) (hk : k < 4095) :
    s.sweepRow = { s with pm := p.swept (k + 1) } := by
  have hval : (RowNum.ofSum k).val = k := RowNum.val_ofSum (by omega)
  have hlast : RowNum.ofSum k ≠ 4095 := fun he => by
    rw [he] at hval
    have : (4095 : RowNum).val = 4095 := rfl
    omega
  have hnext : RowNum.ofSum k + 1 = RowNum.ofSum (k + 1) := by
    apply Fin.ext
    rw [RowNum.val_ofSum (by omega), row_succ_val (high := 4095) (by rw [Fin.lt_def, hval]; exact hk), hval]
  rw [State.sweepRow_goesOn (r := RowNum.ofSum k) (by rw [h]; rfl) hlast, h, hnext]
  rfl

/-- The row write of row 4095 ends the sweep. -/
theorem State.sweepRow_swept_last {s : State} {p : PatternMemory} {k : Nat} (h : s.pm = p.swept k) (hk : k + 1 = 4096)
    (hwf : p.rows.wf = true) :
    s.sweepRow = { s with pm := { p with rows := [], sweep := none }, events := s.events.raise .initDone } := by
  have hlast : RowNum.ofSum k = 4095 := Fin.ext ((RowNum.val_ofSum (by omega)).trans (Nat.succ.inj hk))
  have hrows := Memory.sweep_all hwf hk
  rw [hlast] at hrows
  rw [State.sweepRow_ends (by rw [h, ← hlast]; rfl), h]
  exact congrArg (fun m => ({ s with pm := { p with rows := m, sweep := none }, events := s.events.raise .initDone } : State)) hrows

/-- The sweep at row 0 has written no row yet. -/
theorem PatternMemory.swept_zero {p : PatternMemory} (h : p.sweep = some 0) : p.swept 0 = p := by
  cases p
  simp_all [PatternMemory.swept, Memory.sweep, RowNum.ofSum]

/-! ### Steps on an empty queue -/

/-- On an empty queue with no edge of the bus a step is the blocks' CLKIN cycle (log entry 1). -/
theorem step_quiet {s : State} (hp : s.pending = []) (hreset : s.pins.resetLow = false) (hq : BusQuiet s) :
    step s = .next (((pulsed s 1).sweepRow.clockTimebase).clockCommit s.pm.commits) := by
  unfold step
  rw [hp]
  exact congrArg Host.Outcome.next (s.clockCycle_quiet hreset hq)

theorem State.takesCycles_of_same {s t : State} (hpins : t.pins = s.pins) (htimebase : t.timebase = s.timebase) :
    t.takesCycles = s.takesCycles := by
  simp [State.takesCycles, State.gateHolds, hpins, htimebase]

theorem State.clockTimebase_still {s : State} (h : s.takesCycles = false) : s.clockTimebase = s := by
  simp [State.clockTimebase, h]

/-- With nothing counting and no commit application a cycle is one row write of the sweep, if one is in progress (R178). -/
theorem step_still {s : State} (hp : s.pending = []) (hreset : s.pins.resetLow = false) (hq : BusQuiet s)
    (htakes : s.takesCycles = false) (hcommits : s.pm.commits = []) : step s = .next (pulsed s 1).sweepRow := by
  have hstill : (pulsed s 1).sweepRow.takesCycles = false := by
    rw [← htakes]
    exact State.takesCycles_of_same (by simp [pulsed]) (by simp [pulsed])
  rw [step_quiet hp hreset hq, State.clockTimebase_still hstill, hcommits]
  rfl

@[simp] theorem pulsed_frame (s : State) (k : Nat) :
    (pulsed s k).pm = s.pm ∧ (pulsed s k).window = s.window ∧ (pulsed s k).queue = s.queue ∧ (pulsed s k).timebase = s.timebase ∧
    (pulsed s k).lanes = s.lanes ∧ (pulsed s k).compare = s.compare ∧ (pulsed s k).events = s.events ∧ (pulsed s k).bus = s.bus ∧
    (pulsed s k).pins = s.pins ∧ (pulsed s k).free = s.free ∧ (pulsed s k).pending = s.pending :=
  ⟨rfl, rfl, rfl, rfl, rfl, rfl, rfl, rfl, rfl, rfl, rfl⟩

theorem pulsed_succ (s : State) (k : Nat) : pulsed (pulsed s k) 1 = pulsed s (k + 1) := by
  simp [pulsed, Nat.sub_sub]

/-! ### The whole sweep -/

/-- A step on a queue that begins with a sweep row write. -/
theorem step_sweepRowWrite {s : State} {rest : List Instr} (h : s.pending = .sweepRowWrite :: rest) :
    step s = .next ({ s with pending := rest }).sweepRow := by
  unfold step
  rw [h]
  rfl

/-- The first k sweep row writes of a queue, before row 4095. -/
theorem steps_sweepRowWrite {s : State} (hsweep : s.pm.sweep = some 0) {k : Nat} (hk : k ≤ 4095) :
    ∀ rest, s.pending = List.replicate k .sweepRowWrite ++ rest →
      steps k s = .next { s with pm := s.pm.swept k, pending := rest } := by
  induction k with
  | zero =>
    intro rest hrest
    rw [PatternMemory.swept_zero hsweep, ← show s.pending = rest from hrest]
    rfl
  | succ k ih =>
    intro rest hrest
    rw [List.replicate_succ', List.append_assoc] at hrest
    rw [steps_snoc k s _ (ih (by omega) _ hrest), step_sweepRowWrite rfl]
    exact congrArg Host.Outcome.next (State.sweepRow_swept rfl (by omega))

/-- The first k cycles of a sweep on an empty queue, before row 4095. -/
theorem steps_sweepCycle {s : State} (hsweep : s.pm.sweep = some 0) (hp : s.pending = []) (hreset : s.pins.resetLow = false)
    (hq : BusQuiet s) (htakes : s.takesCycles = false) (hcommits : s.pm.commits = []) {k : Nat} (hk : k ≤ 4095) :
    steps k s = .next { pulsed s k with pm := s.pm.swept k } := by
  induction k with
  | zero =>
    rw [PatternMemory.swept_zero hsweep]
    rfl
  | succ k ih =>
    rw [steps_snoc k s _ (ih (by omega)), step_still (s := { pulsed s k with pm := s.pm.swept k }) hp hreset hq htakes hcommits]
    refine congrArg Host.Outcome.next ((State.sweepRow_swept (p := s.pm) (k := k) rfl (by omega)).trans ?_)
    rw [← pulsed_succ]
    rfl

/-- Settles O12: 4095 row writes by induction on the rows, then the one that ends the sweep. -/
theorem sweepLeavesEveryRowReset : Obligations.SweepLeavesEveryRowReset := by
  unfold Obligations.SweepLeavesEveryRowReset
  intro s hwf hsweep
  have whole {k : Nat} (hk : k + 1 = 4096) :
      (∀ rest, s.pending = List.replicate (k + 1) .sweepRowWrite ++ rest → steps (k + 1) s = .next { s with
        pm := { s.pm with rows := [], sweep := none }
        events := s.events.raise .initDone
        pending := rest }) ∧
      (s.pending = [] → s.pins.resetLow = false → BusQuiet s → s.takesCycles = false → s.pm.commits = [] →
        steps (k + 1) s = .next { pulsed s (k + 1) with
          pm := { s.pm with rows := [], sweep := none }
          events := s.events.raise .initDone }) := by
    refine ⟨fun rest hrest => ?_, fun hp hreset hq htakes hcommits => ?_⟩
    · rw [List.replicate_succ', List.append_assoc] at hrest
      rw [steps_snoc k s _ (steps_sweepRowWrite hsweep (by omega) _ hrest), step_sweepRowWrite rfl]
      exact congrArg Host.Outcome.next (State.sweepRow_swept_last (p := s.pm) rfl hk hwf)
    · rw [steps_snoc k s _ (steps_sweepCycle hsweep hp hreset hq htakes hcommits (by omega)),
        step_still (s := { pulsed s k with pm := s.pm.swept k }) hp hreset hq htakes hcommits]
      refine congrArg Host.Outcome.next ((State.sweepRow_swept_last (p := s.pm) rfl hk hwf).trans ?_)
      rw [← pulsed_succ s k]
      rfl
  exact whole (k := 4095) rfl

end Sys2Proof.Machine
end

section
/-! The fill's row writes (R13, R16, R17). -/

namespace Sys2Proof.Machine

/-! ### What a row write leaves of a row -/

theorem Fill.cells_write (f : Fill) (row : RowData) (n : Lane) : (f.write row).cells.get n =
    match f.value with
    | .cells c => if f.laneStart ≤ n ∧ n ≤ f.laneEnd then c else row.cells.get n
    | .attributes _ => row.cells.get n := by
  unfold Fill.write
  cases f.value <;> simp

theorem Fill.attributes_write (f : Fill) (row : RowData) : (f.write row).attributes =
    match f.value with
    | .cells _ => row.attributes
    | .attributes a => a := by
  unfold Fill.write
  cases f.value <;> rfl

/-- Memory `m'` is `m` with the fill value in the fill's reach of the rows in `reached`. -/
structure Filled (f : Fill) (reached : RowNum → Prop) (m m' : Memory) : Prop where
  row : ∀ q, m'.row q = f.write (m.row q) ∧ reached q ∨ m'.row q = m.row q ∧ ¬reached q

section
variable {f : Fill} {reached : RowNum → Prop} [DecidablePred reached] {m m' : Memory}

theorem Filled.cell (h : Filled f reached m m') (q : RowNum) (n : Lane) : m'.cell q n =
    match f.value with
    | .cells c => if reached q ∧ f.laneStart ≤ n ∧ n ≤ f.laneEnd then c else m.cell q n
    | .attributes _ => m.cell q n := by
  unfold Memory.cell
  rcases h.row q with ⟨hrow, hq⟩ | ⟨hrow, hq⟩
  · rw [hrow, f.cells_write]
    cases f.value <;> simp [hq]
  · rw [hrow]
    cases f.value <;> simp [hq]

theorem Filled.attributes (h : Filled f reached m m') (q : RowNum) : m'.attributes q =
    match f.value with
    | .cells _ => m.attributes q
    | .attributes a => if reached q then a else m.attributes q := by
  unfold Memory.attributes
  rcases h.row q with ⟨hrow, hq⟩ | ⟨hrow, hq⟩
  · rw [hrow, f.attributes_write]
    cases f.value <;> simp [hq]
  · rw [hrow]
    cases f.value <;> simp [hq]

end

/-- The rows of PM after the row write of a fill (R13). -/
def Fill.rowWritten (f : Fill) (m : Memory) : Memory := m.writeRow f.row (f.write (m.row f.row))

theorem Fill.filled_rowWritten (f : Fill) (m : Memory) : Filled f (fun q => q = f.row) m (f.rowWritten m) := by
  refine ⟨fun q => ?_⟩
  rw [Fill.rowWritten, Memory.row_writeRow]
  by_cases hq : q = f.row
  · exact .inl ⟨by simp [hq], hq⟩
  · exact .inr ⟨by simp [hq], hq⟩

/-! ### One row write -/

theorem Fill.lastRow_eq (f : Fill) : f.lastRow = if f.direction = Direction.ascending then f.rowEnd else f.rowStart := by
  unfold Fill.lastRow
  cases f.direction <;> rfl

theorem Fill.nextRow_eq (f : Fill) : f.nextRow = if f.direction = Direction.ascending then f.row + 1 else f.row - 1 := by
  unfold Fill.nextRow
  cases f.direction <;> rfl

theorem State.fillRow_goesOn {s : State} {f : Fill} (hf : s.pm.fill = some f) (hc : s.pm.commits = []) (he : f.ending = false)
    (hlast : f.row ≠ f.lastRow) :
    s.fillRow = { s with pm := { s.pm with rows := f.rowWritten s.pm.rows, fill := some { f with row := f.nextRow } } } := by
  simp [State.fillRow, hf, hc, he, hlast, Fill.rowWritten]

theorem State.fillRow_ends {s : State} {f : Fill} (hf : s.pm.fill = some f) (hc : s.pm.commits = []) (he : f.ending = false)
    (hlast : f.row = f.lastRow) :
    s.fillRow = ({ s with pm := { s.pm with rows := f.rowWritten s.pm.rows, fill := none } }).raise .fillDone := by
  simp [State.fillRow, hf, hc, he, ← hlast, Fill.rowWritten]

/-- Settles O15: the row write by whether the fill is ending and whether the row is its last. -/
theorem fillRowWriteSetsItsRow : Obligations.FillRowWriteSetsItsRow := by
  unfold Obligations.FillRowWriteSetsItsRow
  intro s f hf
  have hfilled := f.filled_rowWritten s.pm.rows
  refine ⟨fun hc => congrArg Host.Outcome.next (s.fillRow_of_commits hc), fun hc => ?_⟩
  refine ⟨s.fillRow, rfl, ?_⟩
  rcases Bool.eq_false_or_eq_true f.ending with he | he
  · rw [State.fillRow_ending hf he hc]
    refine ⟨hfilled.cell, hfilled.attributes, rfl, rfl, ?_, raises_of_events rfl (by simp [he]), fun _ => rfl, by simp [he]⟩
    intro p hp
    cases p <;> simp_all [Part.same, lastRowWritten]
  · by_cases hlast : f.row = f.lastRow
    · rw [State.fillRow_ends hf hc he hlast]
      rw [f.lastRow_eq] at hlast
      refine ⟨hfilled.cell, hfilled.attributes, rfl, rfl, ?_, raises_raise rfl (by simp [he, hlast]), fun _ => rfl,
        fun _ h => absurd hlast h⟩
      intro p hp
      cases p <;> simp_all [Part.same]
    · rw [State.fillRow_goesOn hf hc he hlast, f.nextRow_eq]
      rw [f.lastRow_eq] at hlast
      refine ⟨hfilled.cell, hfilled.attributes, rfl, rfl, ?_, raises_of_events rfl (by simp [hlast]),
        fun h => absurd h (by simp [he, hlast]), fun _ _ => rfl⟩
      intro p hp
      cases p <;> simp_all [Part.same]

end Sys2Proof.Machine
end

section
/-! A whole fill, row write by row write (R13). -/

namespace Sys2Proof.Machine

/-! ### The rows of a fill's window -/

/-- The number of rows of a fill's window. -/
def Fill.rowCount (f : Fill) : Nat := f.rowEnd.val - f.rowStart.val + 1

/-- The row of row write number k, counted in the row direction (R13). -/
def Fill.rowIndex (f : Fill) (k : Nat) : Nat :=
  if f.direction = Direction.ascending then f.rowStart.val + k else f.rowEnd.val - k

/-- The rows of the first k row writes (R13). -/
def Fill.Reached (f : Fill) (k : Nat) (q : RowNum) : Prop :=
  if f.direction = Direction.ascending then f.rowStart.val ≤ q.val ∧ q.val < f.rowStart.val + k
  else q.val ≤ f.rowEnd.val ∧ f.rowEnd.val < q.val + k

section
variable {f : Fill} {k : Nat} {q r : RowNum}

theorem Fill.not_reached_zero (q : RowNum) : ¬f.Reached 0 q := by
  unfold Fill.Reached
  split <;> omega

/-- The next row write reaches its row and no other. -/
theorem Fill.reached_succ (hr : r.val = f.rowIndex k) (hk : k < f.rowCount) (horder : f.rowStart ≤ f.rowEnd) :
    f.Reached (k + 1) q ↔ f.Reached k q ∨ q = r := by
  rw [Fin.le_def] at horder
  unfold Fill.Reached
  unfold Fill.rowIndex at hr
  unfold Fill.rowCount at hk
  rw [Fin.ext_iff]
  split <;> simp_all <;> omega

/-- A row not written yet is not reached. -/
theorem Fill.not_reached (hr : r.val = f.rowIndex k) (hk : k < f.rowCount) : ¬f.Reached k r := by
  unfold Fill.Reached
  unfold Fill.rowIndex at hr
  unfold Fill.rowCount at hk
  split <;> simp_all
  omega

/-- The row of write number k is the last row exactly when k + 1 writes are all of them (R13). -/
theorem Fill.rowIndex_last_iff (hr : r.val = f.rowIndex k) (hk : k < f.rowCount) (horder : f.rowStart ≤ f.rowEnd) :
    r = f.lastRow ↔ k + 1 = f.rowCount := by
  rw [Fin.le_def] at horder
  unfold Fill.rowIndex at hr
  unfold Fill.rowCount at hk ⊢
  rw [Fin.ext_iff, f.lastRow_eq]
  split <;> simp_all <;> omega

/-- The row after the row of write number k, before the last, is the row of the next write (R13). -/
theorem Fill.nextRow_index (hr : f.row.val = f.rowIndex k) (hk : k + 1 < f.rowCount) : f.nextRow.val = f.rowIndex (k + 1) := by
  have hend := f.rowEnd.isLt
  unfold Fill.rowIndex at hr ⊢
  unfold Fill.rowCount at hk
  rw [f.nextRow_eq]
  split
  · next hd =>
    rw [if_pos hd] at hr
    rw [row_succ_val (high := f.rowEnd) (by rw [Fin.lt_def]; omega), hr, Nat.add_assoc]
  · next hd =>
    rw [if_neg hd] at hr
    rw [row_pred_val (low := f.rowStart) (by rw [Fin.lt_def]; omega)]
    omega

end

/-! ### The rows after one more row write -/

section
variable {f : Fill} {reached other : RowNum → Prop} {m m' : Memory}

theorem Filled.congr (h : Filled f reached m m') (hr : ∀ q, other q ↔ reached q) : Filled f other m m' :=
  ⟨fun q => by rw [hr]; exact h.row q⟩

/-- One more row of the fill. -/
theorem Filled.snoc (h : Filled f reached m m') {r : RowNum} (hr : ¬reached r) :
    Filled f (fun q => reached q ∨ q = r) m (({ f with row := r } : Fill).rowWritten m') := by
  refine ⟨fun q => ?_⟩
  have hwritten : (({ f with row := r } : Fill).rowWritten m').row q = if q = r then f.write (m'.row r) else m'.row q :=
    m'.row_writeRow r q _
  rw [hwritten]
  by_cases hq : q = r
  · subst hq
    rcases h.row q with ⟨-, hin⟩ | ⟨hrow, -⟩
    · exact absurd hin hr
    · exact .inl ⟨by rw [if_pos rfl, hrow], .inr rfl⟩
  · rw [if_neg hq]
    rcases h.row q with ⟨hrow, hin⟩ | ⟨hrow, hout⟩
    · exact .inl ⟨hrow, .inl hin⟩
    · exact .inr ⟨hrow, fun hor => hor.elim hout hq⟩

end

/-! ### k row writes -/

/-- What k row writes of a fill at its first row leave (R13). -/
structure FillProgress (s : State) (f : Fill) (k : Nat) (t : State) : Prop where
  frame : SameBut [.pm, .events, .pending] s t
  rows : Filled f (f.Reached k) s.pm.rows t.pm.rows
  sweep : t.pm.sweep = s.pm.sweep
  commits : t.pm.commits = s.pm.commits
  goesOn : k < f.rowCount → ∃ r : RowNum, r.val = f.rowIndex k ∧ t.pm.fill = some { f with row := r }
  ended : k = f.rowCount → t.pm.fill = none
  raises : Raises s t (fun e => e = .fillDone ∧ k = f.rowCount)

/-- A fill at its first row has written none. -/
theorem FillProgress.zero {s : State} {f : Fill} (hf : s.pm.fill = some f) (hrow : f.row.val = f.rowIndex 0) :
    FillProgress s f 0 s where
  frame := fun p _ => by cases p <;> rfl
  rows := ⟨fun q => .inr ⟨rfl, f.not_reached_zero q⟩⟩
  sweep := rfl
  commits := rfl
  goesOn := fun _ => ⟨f.row, hrow, hf⟩
  ended := fun h => absurd h (Nat.succ_ne_zero _).symm
  raises := raises_of_events rfl fun _ h => absurd h.2 (Nat.succ_ne_zero _).symm

/-- The commands waiting are no part of a fill's progress. -/
theorem FillProgress.withPending {s t : State} {f : Fill} {k : Nat} (h : FillProgress s f k t) (rest : List Instr) :
    FillProgress s f k { t with pending := rest } where
  frame := fun p hp => by
    have := h.frame p hp
    cases p <;> simp_all [Part.same]
  rows := h.rows
  sweep := h.sweep
  commits := h.commits
  goesOn := h.goesOn
  ended := h.ended
  raises := h.raises

/-- One more row write (R13). -/
theorem FillProgress.fillRow {s t : State} {f : Fill} {k : Nat} (h : FillProgress s f k t) (hk : k < f.rowCount)
    (horder : f.rowStart ≤ f.rowEnd) (he : f.ending = false) (hc : s.pm.commits = []) : FillProgress s f (k + 1) t.fillRow := by
  obtain ⟨r, hr, hfill⟩ := h.goesOn hk
  have hcommits : t.pm.commits = [] := h.commits.trans hc
  have hrows : Filled f (f.Reached (k + 1)) s.pm.rows (({ f with row := r } : Fill).rowWritten t.pm.rows) :=
    (h.rows.snoc (f.not_reached hr hk)).congr fun q => f.reached_succ hr hk horder
  have hfired : Raises s t (fun _ => False) := raises_congr h.raises fun e => ⟨False.elim, fun hd => hk.ne hd.2⟩
  have hframe {u : State} (hsame : SameBut [.pm, .events] t u) : SameBut [.pm, .events, .pending] s u :=
    SameBut.mono (SameBut.trans h.frame hsame) (by simp)
  by_cases hlast : r = f.lastRow
  · have hall : k + 1 = f.rowCount := (f.rowIndex_last_iff hr hk horder).1 hlast
    rw [State.fillRow_ends hfill hcommits he hlast]
    refine ⟨hframe fun p hp => ?_, hrows, h.sweep, h.commits, fun hlt => absurd hall hlt.ne, fun _ => rfl, ?_⟩
    · cases p <;> simp_all [Part.same]
    · exact raises_congr (raises_trans hfired (raises_raise (P := fun e => e = .fillDone) rfl (by simp))) (by simp [hall])
  · have hmore : k + 1 ≠ f.rowCount := fun hall => hlast ((f.rowIndex_last_iff hr hk horder).2 hall)
    rw [State.fillRow_goesOn hfill hcommits he hlast]
    refine ⟨hframe fun p hp => ?_, hrows, h.sweep, h.commits, fun hlt => ?_, fun hall => absurd hall hmore, ?_⟩
    · cases p <;> simp_all [Part.same]
    · exact ⟨_, Fill.nextRow_index (f := { f with row := r }) hr hlt, rfl⟩
    · exact raises_congr (raises_end hfired rfl) (by simp [hmore])

/-- k row writes of a queue. -/
theorem fillProgress_steps {s : State} {f : Fill} (hf : s.pm.fill = some f) (hrow : f.row.val = f.rowIndex 0)
    (horder : f.rowStart ≤ f.rowEnd) (he : f.ending = false) (hc : s.pm.commits = []) {k : Nat} (hk : k ≤ f.rowCount) :
    ∀ rest, s.pending = List.replicate k .fillRowWrite ++ rest →
      ∃ t, steps k s = .next t ∧ t.pending = rest ∧ FillProgress s f k t := by
  induction k with
  | zero => exact fun rest hrest => ⟨s, rfl, hrest, .zero hf hrow⟩
  | succ k ih =>
    intro rest hrest
    rw [List.replicate_succ', List.append_assoc] at hrest
    obtain ⟨t, hsteps, hpending, hprogress⟩ := ih (by omega) _ hrest
    refine ⟨({ t with pending := rest }).fillRow, ?_, by simp, (hprogress.withPending rest).fillRow hk horder he hc⟩
    rw [steps_snoc k s t hsteps]
    unfold step
    rw [hpending]
    rfl

/-- Settles O16: the progress of a fill by induction on its row writes. -/
theorem fillWritesItsWindowAndNothingElse : Obligations.FillWritesItsWindowAndNothingElse := by
  unfold Obligations.FillWritesItsWindowAndNothingElse
  intro s f rest k hf he hc horder hrow hk hrest
  have hfirst : f.row.val = f.rowIndex 0 := by
    rw [hrow]
    unfold Fill.rowIndex
    split <;> rfl
  obtain ⟨t, hsteps, hpending, h⟩ := fillProgress_steps hf hfirst horder he hc hk rest hrest
  have := Classical.decPred (f.Reached k)
  refine ⟨t, hsteps, hpending, h.frame, ⟨fun q n => ?_, fun q => ?_⟩, h.sweep, h.commits, ⟨fun hnone => ?_, h.ended⟩, h.raises⟩
  · rw [h.rows.cell q n]
    cases f.value <;> simp [Fill.Reached]
  · rw [h.rows.attributes q]
    cases f.value <;> simp [Fill.Reached]
  · by_contra hne
    obtain ⟨r, -, hsome⟩ := h.goesOn (lt_of_le_of_ne hk hne)
    rw [hnone] at hsome
    cases hsome

end Sys2Proof.Machine
end

section
/-! Steps on an empty queue at the timebase and at the commit applications (R63, R64, R65, R68; log entry 1). -/

namespace Sys2Proof.Machine

/-! ### The counts of one counted cycle -/

theorem Timebase.lastCycle_iff (t : Timebase) :
    t.lastCycle = true ↔ t.division ≤ t.prescaleCount + 1 ∧ t.periodLength ≤ t.periodCount + 1 := by
  simp [Timebase.lastCycle]

/-- A cycle within the division counts at the prescaler (R63). -/
theorem Timebase.count_prescale {t : Timebase} (h : t.prescaleCount + 1 < t.division) :
    t.lastCycle = false ∧ t.count = { t with prescaleCount := t.prescaleCount + 1 } := by
  refine ⟨?_, by simp [Timebase.count, h]⟩
  rw [← Bool.not_eq_true, t.lastCycle_iff]
  omega

/-- The last cycle of a division within the period counts at the period (R63). -/
theorem Timebase.count_period {t : Timebase} (h : t.prescaleCount + 1 = t.division) (hp : t.periodCount + 1 < t.periodLength) :
    t.lastCycle = false ∧ t.count = { t with prescaleCount := 0, periodCount := t.periodCount + 1 } := by
  refine ⟨?_, by simp [Timebase.count, h]⟩
  rw [← Bool.not_eq_true, t.lastCycle_iff]
  omega

/-! ### The timebase in one cycle -/

/-- The timebase takes cycles only with RESET_N high and no first latch waiting (R65, R73). -/
theorem State.takesCycles_facts {s : State} (h : s.takesCycles = true) :
    s.pins.resetLow = false ∧ s.timebase.startHeld = false := by
  simp only [State.takesCycles, Bool.and_eq_true, Bool.not_eq_true'] at h
  obtain ⟨⟨⟨hreset, -⟩, hheld⟩, -⟩ := h
  exact ⟨hreset, hheld⟩

theorem State.clockTimebase_count {s : State} (h : s.takesCycles = true) (hlast : s.timebase.lastCycle = false) :
    s.clockTimebase = { s with timebase := s.timebase.count } := by
  simp [State.clockTimebase, h, hlast]

/-- The last cycle of a period is the command TICK (R64; log entry 16). -/
theorem State.clockTimebase_tick {s : State} (h : s.takesCycles = true) (hlast : s.timebase.lastCycle = true)
    (hc : s.pm.commits = []) : s.clockTimebase = s.completePeriod := by
  simp [State.clockTimebase, State.completePeriod, h, hlast, hc]

/-- The timebase after a cycle in which a commit application is in progress: the last cycle of a period is held back (R64). -/
def State.timebaseUnderApplication (s : State) : Timebase :=
  if s.takesCycles && !s.timebase.lastCycle then s.timebase.count else s.timebase

theorem State.clockTimebase_underApplication {s : State} (hc : s.pm.commits ≠ []) :
    s.clockTimebase = { s with timebase := s.timebaseUnderApplication } := by
  unfold State.clockTimebase State.timebaseUnderApplication
  cases s.takesCycles <;> cases s.timebase.lastCycle <;> simp [hc]

/-- The last cycle of the oldest application ends it (R64). -/
theorem State.clockCommit_ends {s : State} {n : Nat} {rest : List Nat} (hn : n ≤ 1) (hc : s.pm.commits = n :: rest) :
    s.clockCommit (n :: rest) = { s with
      pm := { s.pm with commits := rest }
      timebase := { s.timebase with startHeld := if rest = [] then false else s.timebase.startHeld } } := by
  rw [← s.endCommitApplication_cons hc]
  exact if_pos hn

theorem State.clockCommit_goesOn {s : State} {n : Nat} {rest : List Nat} (hn : ¬n ≤ 1) :
    s.clockCommit (n :: rest) = { s with pm := { s.pm with commits := (n - 1) :: rest } } := if_neg hn

/-! ### One step -/

/-- With the part ready a step on an empty queue is the pulses, the timebase and the commit application in progress. -/
theorem step_ready {s : State} (h : Ready s) (hp : s.pending = []) (hq : BusQuiet s) :
    step s = .next ((pulsed s 1).clockTimebase.clockCommit s.pm.commits) := by
  rw [step_quiet hp h.1 hq, State.sweepRow_none (pulsed s 1) h.2]

/-- A step of a commit application takes one of its cycles, and with its last it ends (R64, R65). -/
theorem step_application {s : State} (h : Ready s) (hp : s.pending = []) (hq : BusQuiet s) {n : Nat} {rest : List Nat}
    (hc : s.pm.commits = n :: rest) : step s = .next { pulsed s 1 with
      pm := { s.pm with commits := if n ≤ 1 then rest else (n - 1) :: rest }
      timebase := if n ≤ 1 ∧ rest = [] then { s.timebaseUnderApplication with startHeld := false }
        else s.timebaseUnderApplication } := by
  rw [step_ready h hp hq, State.clockTimebase_underApplication (s := pulsed s 1) (by simp [hc])]
  refine congrArg Host.Outcome.next ?_
  have hsame : (pulsed s 1).timebaseUnderApplication = s.timebaseUnderApplication := rfl
  rw [hsame, hc]
  by_cases hn : n ≤ 1
  · rw [State.clockCommit_ends (s := { pulsed s 1 with timebase := s.timebaseUnderApplication }) hn hc]
    cases rest <;> simp [hn]
  · rw [State.clockCommit_goesOn hn]
    simp [hn]

/-- The last cycle of a period, with no commit application in progress, is the command TICK (R63). -/
theorem step_tick {s : State} (h : Ready s) (hp : s.pending = []) (hq : BusQuiet s) (htakes : s.takesCycles = true)
    (hc : s.pm.commits = []) (hlast : s.timebase.lastCycle = true) : step s = exec .tick (pulsed s 1) := by
  rw [step_ready h hp hq, State.clockTimebase_tick (s := pulsed s 1) htakes hlast hc, hc]
  rfl

/-- Any other counted cycle advances the counts (R63). -/
theorem step_count {s : State} (h : Ready s) (hp : s.pending = []) (hq : BusQuiet s) (htakes : s.takesCycles = true)
    (hc : s.pm.commits = []) (hlast : s.timebase.lastCycle = false) :
    step s = .next { pulsed s 1 with timebase := s.timebase.count } := by
  rw [step_ready h hp hq, State.clockTimebase_count (s := pulsed s 1) htakes hlast, hc]
  rfl

/-- With nothing counting and no commit application only the pulses count down. -/
theorem step_pulses {s : State} (h : Ready s) (hp : s.pending = []) (hq : BusQuiet s) (htakes : s.takesCycles = false)
    (hc : s.pm.commits = []) : step s = .next (pulsed s 1) := by
  rw [step_still hp h.1 hq htakes hc, State.sweepRow_none (pulsed s 1) h.2]

/-- Settles O3: one cycle by what is in progress. -/
theorem emptyQueueCountsOneCycle : Obligations.EmptyQueueCountsOneCycle := by
  unfold Obligations.EmptyQueueCountsOneCycle
  intro s hp
  refine ⟨fun hreset => ?_, fun h hq htakes => ?_, fun hreset hq _ htakes hc => step_still hp hreset hq htakes hc,
    fun h hq htakes hc => ?_⟩
  · unfold step
    rw [hp]
    simp [State.clockCycle, hreset]
  · cases hc : s.pm.commits with
    | nil =>
      refine ⟨_, step_pulses h hp hq htakes hc, fun p hpart => ?_, rfl, rfl, ?_, by simp⟩
      · cases p <;> simp_all [Part.same]
      · have hpm : s.pm = { s.pm with commits := [] } := by rw [← hc]
        exact hpm
    | cons n rest =>
      have hstill : s.timebaseUnderApplication = s.timebase := by simp [State.timebaseUnderApplication, htakes]
      refine ⟨_, step_application h hp hq hc, fun p hpart => ?_, rfl, rfl, rfl, ?_⟩
      · cases p <;> simp_all [Part.same]
      · rw [hstill]
        by_cases hn : n ≤ 1 <;> cases rest <;> simp [hn]
  · intro division period _ _
    refine ⟨fun hlast hend => ?_, fun hmore => ?_, fun hlast hmore => ?_⟩
    · exact step_tick h hp hq htakes hc (s.timebase.lastCycle_iff.2 ⟨hlast.ge, hend.ge⟩)
    · obtain ⟨hnot, hcount⟩ := Timebase.count_prescale (t := s.timebase) hmore
      rw [step_count h hp hq htakes hc hnot, hcount]
    · obtain ⟨hnot, hcount⟩ := Timebase.count_period (t := s.timebase) hlast hmore
      rw [step_count h hp hq htakes hc hnot, hcount]

/-- Settles O31: a gate that holds keeps the timebase from taking the cycle. -/
theorem gateHoldsTheTimebase : Obligations.GateHoldsTheTimebase := by
  unfold Obligations.GateHoldsTheTimebase
  intro s
  refine ⟨fun level => rfl, fun henabled hhold => ?_⟩
  have hstill : s.takesCycles = false := by simp [State.takesCycles, State.gateHolds, henabled, hhold]
  exact ⟨exec_tick_of_not_takesCycles hstill, fun h hq hc hp => step_pulses h hp hq hstill hc⟩

/-! ### D x P counted cycles -/

/-- The part with its counts at two values. -/
def State.withCounts (s : State) (prescale periods : Nat) : State :=
  { s with timebase := { s.timebase with prescaleCount := prescale, periodCount := periods } }

theorem State.withCounts_same {s : State} {a b : Nat} (ha : s.timebase.prescaleCount = a) (hb : s.timebase.periodCount = b) :
    s.withCounts a b = s := by
  subst ha hb
  rfl

/-- One counted cycle takes the counts at k mod D and k / D to those of k + 1 (R63). -/
theorem Timebase.count_of_index {t : Timebase} {k : Nat} (hprescale : t.prescaleCount = k % t.division)
    (hperiod : t.periodCount = k / t.division) (hk : k + 1 < t.division * t.periodLength) : t.lastCycle = false ∧
      t.count = { t with prescaleCount := (k + 1) % t.division, periodCount := (k + 1) / t.division } := by
  have hcol : k % t.division < t.division := Nat.mod_lt k t.division_pos
  rcases (Nat.succ_le_of_lt hcol).lt_or_eq with hmore | hlast
  · obtain ⟨hdiv, hmod⟩ := succ_div_mod_of_lt hmore
    obtain ⟨hnot, hcount⟩ := Timebase.count_prescale (t := t) (by rw [hprescale]; exact hmore)
    exact ⟨hnot, by rw [hcount, hdiv, hmod, ← hperiod, hprescale]⟩
  · obtain ⟨hdiv, hmod⟩ := succ_div_mod_of_eq hlast
    have hperiods : k / t.division + 1 < t.periodLength := by
      rw [← hdiv]
      exact Nat.div_lt_of_lt_mul hk
    obtain ⟨hnot, hcount⟩ := Timebase.count_period (t := t) (by rw [hprescale]; exact hlast) (by rw [hperiod]; exact hperiods)
    exact ⟨hnot, by rw [hcount, hdiv, hmod, hperiod]⟩

section
variable {s : State} (h : Ready s) (hp : s.pending = []) (hq : BusQuiet s) (htakes : s.takesCycles = true) (hc : s.pm.commits = [])
  (hprescale : s.timebase.prescaleCount = 0) (hperiod : s.timebase.periodCount = 0)
include h hp hq htakes hc hprescale hperiod

/-- The first cycles of a period from counts of 0 (R63). -/
theorem steps_count {k : Nat} (hk : k < s.timebase.division * s.timebase.periodLength) :
    steps k s = .next ((pulsed s k).withCounts (k % s.timebase.division) (k / s.timebase.division)) := by
  induction k with
  | zero =>
    rw [State.withCounts_same (s := pulsed s 0) (hprescale.trans (Nat.zero_mod _).symm) (hperiod.trans (Nat.zero_div _).symm)]
    rfl
  | succ k ih =>
    obtain ⟨hlast, hcount⟩ := Timebase.count_of_index
      (t := ((pulsed s k).withCounts (k % s.timebase.division) (k / s.timebase.division)).timebase) rfl rfl hk
    rw [steps_snoc k s _ (ih (Nat.lt_of_succ_lt hk)),
      step_count (s := (pulsed s k).withCounts (k % s.timebase.division) (k / s.timebase.division)) h hp hq htakes hc hlast, hcount,
      ← pulsed_succ s k]
    rfl

/-- The last cycle of the period is the command TICK (R63). -/
theorem steps_tick : steps (s.timebase.division * s.timebase.periodLength) s =
    exec .tick ((pulsed s (s.timebase.division * s.timebase.periodLength)).withCounts (s.timebase.division - 1)
      (s.timebase.periodLength - 1)) := by
  have hlength : s.timebase.division * s.timebase.periodLength = s.timebase.periodLength * s.timebase.division := Nat.mul_comm _ _
  obtain ⟨k, hk⟩ : ∃ k, s.timebase.division * s.timebase.periodLength = k + 1 :=
    Nat.exists_eq_succ_of_ne_zero (Nat.mul_pos s.timebase.division_pos (Nat.succ_pos _)).ne'
  obtain ⟨hdiv, hmod⟩ := (last_div_mod_iff (k := k) (R := s.timebase.periodLength) (L := s.timebase.division) (by omega)).2 (by omega)
  have hend : (pulsed s k).withCounts (k % s.timebase.division) (k / s.timebase.division) =
      (pulsed s k).withCounts (s.timebase.division - 1) (s.timebase.periodLength - 1) := by
    rw [← hdiv, Nat.add_sub_cancel, Nat.eq_sub_of_add_eq hmod]
  rw [hk, steps_snoc k s _ (steps_count h hp hq htakes hc hprescale hperiod (by omega)), hend,
    step_tick (s := (pulsed s k).withCounts (s.timebase.division - 1) (s.timebase.periodLength - 1)) h hp hq htakes hc, ← pulsed_succ s k]
  · rfl
  · rw [Timebase.lastCycle_iff]
    exact ⟨Nat.le_add_of_sub_le le_rfl, Nat.le_add_of_sub_le le_rfl⟩

end

/-- Settles O32: the counts of k cycles are k mod D and k / D, by induction on k. -/
theorem tickEveryDivisionTimesPeriod : Obligations.TickEveryDivisionTimesPeriod := by
  unfold Obligations.TickEveryDivisionTimesPeriod
  intro s hp hq hsweep hc htakes hprescale hperiod division period after
  have h : Ready s := ⟨(State.takesCycles_facts htakes).1, hsweep⟩
  exact ⟨fun k hk => steps_count h hp hq htakes hc hprescale hperiod hk, steps_tick h hp hq htakes hc hprescale hperiod⟩

end Sys2Proof.Machine
end

section
/-! A commit application in progress for its CLKIN cycles, in a counting run and outside one (R64, R65). -/

namespace Sys2Proof.Machine

/-- The part some cycles on, with the applications left and the timebase as given. -/
def State.applying (s : State) (k : Nat) (commits : List Nat) (b : Timebase) : State :=
  { pulsed s k with
    pm := { s.pm with commits := commits }
    timebase := b }

theorem State.applying_zero {s : State} {commits : List Nat} (hc : s.pm.commits = commits) : s.applying 0 commits s.timebase = s := by
  subst hc
  rfl

theorem State.applying_succ (s : State) (k : Nat) (commits commits' : List Nat) (b b' : Timebase) :
    (s.applying k commits b).applying 1 commits' b' = s.applying (k + 1) commits' b' := by
  unfold State.applying
  rw [← pulsed_succ s k]
  rfl

/-! ### A counting run under an application -/

/-- In a counting run a cycle under an application counts, but for the last cycle of a period (R64). -/
theorem timebaseUnderApplication_counting {s : State} (h : s.takesCycles = true) :
    s.timebaseUnderApplication = if s.timebase.lastCycle then s.timebase else s.timebase.count := by
  unfold State.timebaseUnderApplication
  cases hlast : s.timebase.lastCycle <;> simp [h]

theorem Timebase.count_startHeld (t : Timebase) : t.count.startHeld = t.startHeld := by
  unfold Timebase.count
  split <;> rfl

/-- In a counting run no first latch waits, so the end of the last application changes nothing of the timebase (R65). -/
theorem released_timebaseUnderApplication {s : State} (h : s.takesCycles = true) :
    { s.timebaseUnderApplication with startHeld := false } = s.timebaseUnderApplication := by
  have hheld : s.timebaseUnderApplication.startHeld = false := by
    rw [timebaseUnderApplication_counting h]
    split
    · exact (State.takesCycles_facts h).2
    · rw [Timebase.count_startHeld]
      exact (State.takesCycles_facts h).2
  rw [← hheld]

/-- A step of a counting run under an application (R64). -/
theorem step_application_counting {s : State} (h : Ready s) (hp : s.pending = []) (hq : BusQuiet s) {n : Nat} {rest : List Nat}
    (hc : s.pm.commits = n :: rest) (hn : 1 ≤ n) (htakes : s.takesCycles = true) :
    step s = .next (s.applying 1 (if n = 1 then rest else (n - 1) :: rest)
      (if s.timebase.lastCycle then s.timebase else s.timebase.count)) := by
  rw [step_application h hp hq hc, released_timebaseUnderApplication htakes, ite_self, timebaseUnderApplication_counting htakes]
  have hone : n ≤ 1 ↔ n = 1 := by omega
  simp only [hone]
  rfl

/-! ### n cycles -/

section
variable {s : State} (h : Ready s) (hp : s.pending = []) (hq : BusQuiet s) {n : Nat} {rest : List Nat} (hc : s.pm.commits = n :: rest)
include h hp hq hc

/-- k cycles, short of the last, leave n - k of them, with the last cycle of a period held back (R64). -/
theorem steps_application {k : Nat} (hk : k < n) : ∃ b, steps k s = .next (s.applying k ((n - k) :: rest) b) ∧
    (s.takesCycles = true → s.timebase.lastCycle = true → b = s.timebase) := by
  induction k with
  | zero => exact ⟨s.timebase, congrArg Host.Outcome.next (State.applying_zero hc).symm, fun _ _ => rfl⟩
  | succ k ih =>
    obtain ⟨b, hsteps, hheld⟩ := ih (Nat.lt_of_succ_lt hk)
    refine ⟨(s.applying k ((n - k) :: rest) b).timebaseUnderApplication, ?_, fun htakes hlast => ?_⟩
    · have hmore : ¬n - k ≤ 1 := by omega
      rw [steps_snoc k s _ hsteps, step_application (s := s.applying k ((n - k) :: rest) b) h hp hq rfl,
        ← s.applying_succ k ((n - k) :: rest) _ b]
      simp only [hmore, if_false, false_and]
      rfl
    · obtain rfl := hheld htakes hlast
      have htakes' : (s.applying k ((n - k) :: rest) s.timebase).takesCycles = true := htakes
      rw [timebaseUnderApplication_counting htakes']
      exact if_pos hlast

/-- The last cycle ends the application (R64). -/
theorem steps_application_end (hn : 1 ≤ n) : ∃ b, steps n s = .next (s.applying n rest b) ∧
    (s.takesCycles = true → s.timebase.lastCycle = true → b = s.timebase) := by
  obtain ⟨k, rfl⟩ := Nat.exists_eq_add_of_le' hn
  obtain ⟨b, hsteps, hheld⟩ := steps_application h hp hq hc (Nat.lt_succ_self k)
  rw [Nat.add_sub_cancel_left] at hsteps
  refine ⟨if rest = [] then { (s.applying k (1 :: rest) b).timebaseUnderApplication with startHeld := false }
    else (s.applying k (1 :: rest) b).timebaseUnderApplication, ?_, ?_⟩
  · rw [steps_snoc k s _ hsteps, step_application (s := s.applying k (1 :: rest) b) h hp hq rfl,
      ← s.applying_succ k (1 :: rest) rest b]
    simp only [le_refl, if_true, true_and]
    rfl
  · intro htakes hlast
    obtain rfl := hheld htakes hlast
    have htakes' : (s.applying k (1 :: rest) s.timebase).takesCycles = true := htakes
    rw [released_timebaseUnderApplication htakes', ite_self, timebaseUnderApplication_counting htakes']
    exact if_pos hlast

end

/-- Settles O30: the cycles left by induction on the steps; the timebase by whether the cycle is the last of a period. -/
theorem commitApplicationLastsItsCycles : Obligations.CommitApplicationLastsItsCycles := by
  unfold Obligations.CommitApplicationLastsItsCycles
  intro s n rest hc
  refine ⟨congrArg Host.Outcome.next (s.endCommitApplication_cons hc),
    fun h hq hp hn => ⟨⟨fun k hk => ?_, ?_⟩, fun htakes => ?_⟩⟩
  · obtain ⟨b, hsteps, -⟩ := steps_application h hp hq hc hk
    exact ⟨_, hsteps, rfl⟩
  · obtain ⟨b, hsteps, -⟩ := steps_application_end h hp hq hc hn
    exact ⟨_, hsteps, rfl⟩
  · intro division period counts _ _
    have hstep := step_application_counting h hp hq hc hn htakes
    refine ⟨fun hmore => ?_, fun hlast hmore => ?_, fun hlast hend => ?_⟩
    · obtain ⟨hnot, hcount⟩ := Timebase.count_prescale (t := s.timebase) hmore
      rw [hstep, hnot, hcount]
      rfl
    · obtain ⟨hnot, hcount⟩ := Timebase.count_period (t := s.timebase) hlast hmore
      rw [hstep, hnot, hcount]
      rfl
    · have hheld : s.timebase.lastCycle = true := s.timebase.lastCycle_iff.2 ⟨hlast.ge, hend.ge⟩
      refine ⟨?_, fun hrest => ?_⟩
      · rw [hstep, if_pos hheld, ← hlast, ← hend]
        rfl
      · obtain ⟨b, hsteps, hsame⟩ := steps_application_end h hp hq hc hn
        obtain rfl := hsame htakes hheld
        subst hrest
        rw [steps_snoc n s _ hsteps, step_tick (s := s.applying n [] s.timebase) h hp hq htakes rfl hheld, ← pulsed_succ s n]
        rfl

end Sys2Proof.Machine
end

section
/-! Commits and run starts: the COMMIT command (R54), START (R81, R82) and TRIG (R84). -/

namespace Sys2Proof.Machine

/-! ### The COMMIT command -/

/-- A commit is read at PM and at the queue alone. -/
theorem Committed.of_same {s t u v : State} (h : Committed u v) (hpm : u.pm = s.pm) (hqueue : u.queue = s.queue) (hpm' : t.pm = v.pm)
    (hqueue' : t.queue = v.queue) : Committed s t := by
  unfold Committed at h ⊢
  rw [hpm', hqueue', ← hpm, ← hqueue]
  exact h

theorem sameBut_commitPoint (s : State) : SameBut [.pm, .queue, .events] s s.commitPoint := by
  intro p hp
  cases p <;> simp_all [Part.same]

theorem State.commitCommand_locked {s : State} (hfill : s.pm.fill = none) (h : s.run.seq = .armed ∨ s.run.seq.running = true) :
    s.commitCommand = (s, .refusedState) := by
  unfold State.commitCommand
  cases hseq : s.run.seq <;> simp_all [SeqState.running]

theorem State.commitCommand_taken {s : State} (hfill : s.pm.fill = none) (h : s.run.seq = .idle ∨ s.run.seq = .halted) :
    s.commitCommand = (s.commitPoint, if s.queue.closed = [] then .empty else .accepted) := by
  rcases h with h | h <;> simp [State.commitCommand, hfill, h]

/-- Settles O29: the refusals by state; a commit taken is a commit point. -/
theorem commitAppliesClosedBatches : Obligations.CommitAppliesClosedBatches := by
  unfold Obligations.CommitAppliesClosedBatches
  intro s
  have hexec (hready : Ready s) : exec .commit s = .next (s.commitCommand.1.report s.commitCommand.2) :=
    congrArg Host.Outcome.next (s.command_ready _ hready)
  refine ⟨fun hreset hbusy => ?_, fun hready hfill hseq => ?_, fun hready hfill hseq => ?_⟩
  · exact congrArg Host.Outcome.next (State.command_busy hreset hbusy fun hfill => State.commitCommand_busy hfill)
  · rw [hexec hready, State.commitCommand_locked hfill hseq]
  · have h := hexec hready
    rw [State.commitCommand_taken hfill hseq] at h
    refine ⟨_, h, s.commitPoint_committed, by simp, raises_end s.commitPoint_raises (by simp), ?_⟩
    exact SameBut.mono (SameBut.trans (sameBut_commitPoint s) (sameBut_report _ _)) (by simp)

/-! ### A latch after other steps of one event -/

/-- A latch is read against playback and the lanes as they were (R104). -/
theorem Latched.of_same {s t u : State} {r : RowNum} {v : Lanes LaneState} (h : Latched u t r v) (hplay : u.play = s.play)
    (hlanes : u.lanes = s.lanes) : Latched s t r v := by
  unfold Latched at h ⊢
  rw [← hplay, ← hlanes]
  exact h

/-- A latch after steps that leave playback and the lanes: what it latches, and the flags of both (R104, R108). -/
theorem latchRow_after {s u : State} {P : Event → Prop} (hraises : Raises s u P) (hplay : u.play = s.play)
    (hlanes : u.lanes = s.lanes) (r : RowNum) (v : Lanes LaneState) : Latched s (u.latchRow r v) r v ∧
      Raises s (u.latchRow r v) (fun e => P e ∨ e = .mark ∧ ((u.latchRow r v).pm.rows.attributes r).mark = true) := by
  obtain ⟨hlatched, hmark, -⟩ := u.latchRow_latched r v
  refine ⟨Latched.of_same hlatched hplay hlanes, ?_⟩
  rw [(u.latchRow_frame r v).1]
  exact raises_trans hraises hmark

theorem sameBut_latchRow (s : State) (r : RowNum) (v : Lanes LaneState) :
    SameBut [.run, .play, .lanes, .events, .free] s (s.latchRow r v) := (s.latchRow_latched r v).2.2

/-! ### The run start -/

/-- The state and the first row of a run (R81). -/
theorem State.runStart_eq (s : State) : s.runStart =
    (s.prepareRun.enter (if 0 < s.run.headLen.toNat then .head else .loop)).latchRow
      (RowNum.ofSum (if 0 < s.run.headLen.toNat then s.run.base.toNat
        else s.run.base.toNat + s.run.headLen.toNat + s.run.entryOffset.toNat))
      s.lanes.parkStates := by
  have hrun : s.prepareRun.run = { s.run with
      passCount := 0, targetInForce := s.run.passTarget, stopMark := false, pendingOffset := none } := by simp [State.prepareRun]
  unfold State.runStart
  by_cases hhead : 0 < s.run.headLen.toNat <;> simp [hrun, hhead, RunControl.loopStart]

/-- Steps 1 to 4 of a run start with the state entered: the commit, the flags, and what is set (R81). -/
theorem State.enter_prepareRun (s : State) (q : SeqState) :
    Committed s (s.prepareRun.enter q) ∧ Raises s (s.prepareRun.enter q) (fun e => e = .commit ∧ s.queue.closed ≠ []) ∧
    (s.prepareRun.enter q).run = { s.run with
      seq := q, passCount := 0, targetInForce := s.run.passTarget, stopMark := false, pendingOffset := none, passRows := 0 } ∧
    (s.prepareRun.enter q).compare = { s.compare with log := [], overflow := 0 } ∧
    (s.prepareRun.enter q).timebase = { s.timebase.start with startHeld := !(s.prepareRun.enter q).pm.commits.isEmpty } ∧
    SameBut [.pm, .queue, .timebase, .run, .compare, .events] s (s.prepareRun.enter q) := by
  have hcommitted := s.beforeCommit.commitPoint_committed
  have hraises := s.beforeCommit.commitPoint_raises
  rw [s.prepareRun_eq]
  refine ⟨Committed.of_same hcommitted rfl rfl rfl rfl, raises_end (raises_start hraises rfl) rfl, ?_, ?_, rfl, ?_⟩
  · simp [State.enter, State.beforeCommit, State.startTimebase]
  · simp [State.enter, State.beforeCommit, State.startTimebase]
  · intro p hp
    cases p <;> simp_all [Part.same, State.enter]

/-- A run start from a valid layout (R81). -/
theorem State.runStart_started {s : State} (h : ValidLayout s.run) : RunStarted s s.runStart ∧
    SameBut [.pm, .queue, .timebase, .run, .play, .lanes, .compare, .events, .free] s s.runStart := by
  obtain ⟨hloop, hend, hoffset⟩ := h
  rw [s.runStart_eq]
  generalize hq : (if 0 < s.run.headLen.toNat then SeqState.head else .loop) = q
  generalize hn : (if 0 < s.run.headLen.toNat then s.run.base.toNat
    else s.run.base.toNat + s.run.headLen.toNat + s.run.entryOffset.toNat) = n
  obtain ⟨hcommitted, hraises, hrun, hcompare, htimebase, hframe⟩ := s.enter_prepareRun q
  obtain ⟨hlatched, hflags⟩ := latchRow_after hraises (hframe .play (by simp)) (hframe .lanes (by simp)) (RowNum.ofSum n)
    s.lanes.parkStates
  refine ⟨⟨RowNum.ofSum n, ?_, ?_, ?_, ?_, Committed.of_same hcommitted rfl rfl (by simp) (by simp), hlatched, hflags⟩, ?_⟩
  · have hlt : n < 4096 := by
      rw [← hn]
      split <;> omega
    rw [RowNum.val_ofSum hlt, ← hn]
    split <;> omega
  · rw [← hcompare]
    simp
  · rw [State.latchRow_run, hrun, hq]
  · simp only [State.latchRow_frame, htimebase, Timebase.start]
  · exact SameBut.mono (SameBut.trans hframe (sameBut_latchRow _ _ _)) (by simp)

theorem State.startCommand_invalid {s : State} (hseq : s.run.seq = .idle) (h : ¬ValidLayout s.run) :
    s.startCommand = (s, .refusedLayout) := by
  rw [← s.run.layoutValid_iff] at h
  simp [State.startCommand, hseq, h]

theorem State.startCommand_valid {s : State} (hseq : s.run.seq = .idle ∨ s.run.seq = .armed) (h : ValidLayout s.run) :
    s.startCommand = (s.runStart, .accepted) := by
  rw [← s.run.layoutValid_iff] at h
  rcases hseq with hseq | hseq <;> simp [State.startCommand, hseq, h]

theorem State.startCommand_refused {s : State} (h : s.run.seq.running = true ∨ s.run.seq = .halted) :
    s.startCommand = (s, .refusedState) := by
  unfold State.startCommand
  cases hseq : s.run.seq <;> simp_all [SeqState.running]

/-- A run that has started plays (R80). -/
theorem running_of_runStarted {s t : State} (h : RunStarted s t) : t.run.seq.running = true := by
  obtain ⟨r, -, -, hrun, -⟩ := h
  rw [hrun]
  dsimp only
  split <;> rfl

/-- Settles O35: by the state and the layout; an accepted START is a run start. -/
theorem startMakesARunStart : Obligations.StartMakesARunStart := by
  unfold Obligations.StartMakesARunStart
  intro s
  refine ⟨fun hreset hsweep => congrArg Host.Outcome.next (s.command_sweep _ hreset hsweep), fun hready => ?_⟩
  have hexec : exec .start s = .next (s.startCommand.1.report s.startCommand.2) := congrArg Host.Outcome.next (s.command_ready _ hready)
  refine ⟨fun hseq hlayout => ?_, fun hseq hlayout => ?_, fun hseq => ?_⟩
  · rw [hexec, State.startCommand_invalid hseq hlayout]
  · rw [State.startCommand_valid hseq hlayout] at hexec
    obtain ⟨hstarted, hframe⟩ := State.runStart_started hlayout
    refine ⟨_, hexec, hstarted, ?_, by simp, SameBut.mono (SameBut.trans hframe (sameBut_report _ _)) (by simp)⟩
    simp [State.runningPin, hready.1, running_of_runStarted hstarted]
  · rw [hexec, State.startCommand_refused hseq]

/-! ### TRIG -/

theorem State.isTrigEdge_iff (s : State) (level : Bool) :
    s.isTrigEdge level = true ↔ s.pins.resetLow = false ∧ s.pins.trig ≠ level ∧ level = !s.run.fallingTrig := by
  simp [State.isTrigEdge, RunControl.activeTrig, and_assoc]

theorem State.takeTrigEdge_running {s : State} (h : s.run.seq.running = true ∨ s.run.seq = .halted) :
    s.takeTrigEdge = s.raise .trigIgn := by
  unfold State.takeTrigEdge
  cases hseq : s.run.seq <;> simp_all [SeqState.running]

theorem State.takeTrigEdge_armed {s : State} (h : s.run.seq = .armed) : s.takeTrigEdge = s.runStart := by
  simp [State.takeTrigEdge, h]

/-- Settles O39: by the edge and the state; an edge in ARMED is a run start, which reads no pin. -/
theorem trigEdgeStartsAnArmedRun : Obligations.TrigEdgeStartsAnArmedRun := by
  unfold Obligations.TrigEdgeStartsAnArmedRun
  intro s
  refine ⟨fun level => ?_, fun value hready => congrArg Host.Outcome.next (s.regWrite_ready _ hready),
    fun value hreset hsweep => congrArg Host.Outcome.next (s.regWrite_sweep _ hreset hsweep)⟩
  intro sampledTrig edge
  have hedge : s.isTrigEdge level = true ↔ edge := s.isTrigEdge_iff level
  have taken (h : edge) : exec (.trigEdge level) s = .next sampledTrig.takeTrigEdge :=
    congrArg Host.Outcome.next (if_pos (hedge.2 h))
  refine ⟨fun h => ?_, fun h hseq => ?_, fun h hseq hlayout => ?_⟩
  · rcases h with hnot | hidle
    · exact congrArg Host.Outcome.next (if_neg fun he => hnot (hedge.1 he))
    · exact exec_trigEdge_of_idle hidle level
  · rw [taken h, State.takeTrigEdge_running (s := sampledTrig) hseq]
  · obtain ⟨hstarted, hframe⟩ := State.runStart_started (s := sampledTrig) hlayout
    rw [Completes, taken h, State.takeTrigEdge_armed (s := sampledTrig) hseq]
    refine ⟨_, rfl, hstarted, by simp [sampledTrig], fun p hp => ?_⟩
    have hsame := hframe p
    cases p <;> simp_all [Part.same, sampledTrig]

end Sys2Proof.Machine
end

section
/-! Row ends: the next row of a region, the ends of the head and the tail, and the pass boundary (R86, R87, R88, R91). -/

namespace Sys2Proof.Machine

/-! ### The row end -/

/-- A row end is answered by run control where the latched row has ended (R111). -/
theorem exec_rowEnd_due {s : State} {row : LatchedRow} (h : RowEnded s row) : exec .rowEnd s = .next s.answerRowEnd := by
  show Host.Outcome.next s.endRow = _
  simp [State.endRow, s.rowEndDue_iff.2 ⟨row, h⟩]

/-- With a row latched the next latch resolves KEEP against its states (R106). -/
theorem State.latchNext_of_latched {s : State} {row : LatchedRow} (h : s.play.latched = some row) (n : Nat) :
    s.latchNext n = s.latchRow (RowNum.ofSum n) row.states := by
  simp [State.latchNext, State.previousStates, h]

theorem State.answerRowEnd_head {s : State} (h : s.run.seq = .head) : s.answerRowEnd =
    if s.run.curRow.val + 1 < s.run.loopStart then s.latchNext (s.run.curRow.val + 1) else s.headEnd := by
  simp [State.answerRowEnd, h]

theorem State.answerRowEnd_loop {s : State} (h : s.run.seq = .loop) : s.answerRowEnd =
    if s.run.passRows + 1 < s.run.loopLen.toNat then
      ({ s with run := { s.run with passRows := s.run.passRows + 1 } }).latchNext s.run.nextLoopRow
    else s.passBoundary := by
  simp [State.answerRowEnd, h]

theorem State.answerRowEnd_tail {s : State} (h : s.run.seq = .tail) : s.answerRowEnd =
    if s.run.curRow.val + 1 < s.run.layoutEnd then s.latchNext (s.run.curRow.val + 1) else s.endRun := by
  simp [State.answerRowEnd, h]

theorem sameBut_run (s : State) (r : RunControl) : SameBut [.run] s { s with run := r } := by
  intro p hp
  cases p <;> simp_all [Part.same]

/-- The layout of a run is valid and lies within PM (R77). -/
theorem validLayout_of_running {r : RunControl} (h : LayoutSound r) (hrun : r.seq.running = true) : ValidLayout r :=
  r.layoutValid_iff.1 (h.valid (.inr hrun))

/-- A latch that follows a change of run control alone, as the next row of a run (R86). -/
theorem latchNext_after_run {s : State} {row : LatchedRow} (hlatched : s.play.latched = some row) (r : RunControl) {n : Nat}
    (hn : n < 4096) : ∃ q : RowNum, q.val = n ∧ (({ s with run := r } : State).latchNext n).run = { r with curRow := q } ∧
      Latched s (({ s with run := r } : State).latchNext n) q row.states ∧
      Raises s (({ s with run := r } : State).latchNext n) (fun e => e = .mark ∧ (s.pm.rows.attributes q).mark = true) ∧
      SameBut [.run, .play, .lanes, .events, .free] s (({ s with run := r } : State).latchNext n) := by
  rw [State.latchNext_of_latched (s := { s with run := r }) hlatched n]
  obtain ⟨hlatch, hraises, hframe⟩ := ({ s with run := r } : State).latchRow_latched (RowNum.ofSum n) row.states
  exact ⟨RowNum.ofSum n, RowNum.val_ofSum hn, State.latchRow_run _ _ _, hlatch, hraises,
    SameBut.mono (SameBut.trans (sameBut_run s r) hframe) (by simp)⟩

/-- Settles O41: the next row by region; in LOOP it is the next of the pass order. -/
theorem rowEndLatchesTheNextRow : Obligations.RowEndLatchesTheNextRow := by
  unfold Obligations.RowEndLatchesTheNextRow
  intro s row h hlayout hposition
  have hexec := exec_rowEnd_due h
  obtain ⟨-, hrunning, hlatched, -, -⟩ := h
  obtain ⟨hloop, hend, hoffset⟩ := validLayout_of_running hlayout hrunning
  refine ⟨fun hseq hmore => ?_, fun hseq hmore => ?_, fun hseq hmore => ?_⟩
  · rw [s.answerRowEnd_head hseq, if_pos (show s.run.curRow.val + 1 < s.run.loopStart from hmore)] at hexec
    exact ⟨_, hexec, latchNext_after_run hlatched s.run (by omega)⟩
  · rw [s.answerRowEnd_tail hseq, if_pos (show s.run.curRow.val + 1 < s.run.layoutEnd from hmore)] at hexec
    exact ⟨_, hexec, latchNext_after_run hlatched s.run (by omega)⟩
  · rw [s.answerRowEnd_loop hseq, if_pos hmore, nextLoopRow_eq hposition hseq, RunControl.loopStart] at hexec
    refine ⟨_, hexec, latchNext_after_run hlatched { s.run with passRows := s.run.passRows + 1 } ?_⟩
    have hindex := Nat.mod_lt (s.run.entryOffset.toNat + (s.run.passRows + 1)) (show 0 < s.run.loopLen.toNat by omega)
    omega

/-! ### The end of a run, and latches after the steps of a boundary -/

/-- The state `u` is `s` after steps of one event that raise `P` and leave playback, the lanes and the timebase. -/
structure StepsTaken (s u : State) (P : Event → Prop) : Prop where
  raises : Raises s u P
  play : u.play = s.play
  lanes : u.lanes = s.lanes
  timebase : u.timebase = s.timebase

theorem StepsTaken.refl (s : State) : StepsTaken s s (fun _ => False) := ⟨raises_refl s, rfl, rfl, rfl⟩

/-- Run control may change among the steps. -/
theorem StepsTaken.withRun {s u : State} {P : Event → Prop} (h : StepsTaken s u P) (r : RunControl) :
    StepsTaken s { u with run := r } P := ⟨h.raises, h.play, h.lanes, h.timebase⟩

section
variable {s u : State} {P : Event → Prop} {row : LatchedRow}

/-- A latch after the steps (R104, R106). -/
theorem StepsTaken.latchNext (h : StepsTaken s u P) (hlatched : s.play.latched = some row) {n : Nat} (hn : n < 4096) :
    ∃ q : RowNum, q.val = n ∧ (u.latchNext n).run = { u.run with curRow := q } ∧ Latched s (u.latchNext n) q row.states ∧
      Raises s (u.latchNext n) (fun e => P e ∨ e = .mark ∧ ((u.latchNext n).pm.rows.attributes q).mark = true) := by
  rw [State.latchNext_of_latched (by rw [h.play, hlatched]) n]
  obtain ⟨hlatch, hraises⟩ := latchRow_after h.raises h.play h.lanes (RowNum.ofSum n) row.states
  exact ⟨RowNum.ofSum n, RowNum.val_ofSum hn, State.latchRow_run _ _ _, hlatch, hraises⟩

/-- The normal end of a run after the steps (R91). -/
theorem StepsTaken.endRun (h : StepsTaken s u P) :
    RunEnded s u.endRun u.run ∧ Raises s u.endRun (fun e => P e ∨ e = .done) := by
  obtain ⟨⟨hrun, hlanes, htimebase, hplay⟩, -⟩ := u.toIdle_ended
  rw [h.lanes] at hlanes
  rw [h.timebase] at htimebase
  rw [h.play] at hplay
  refine ⟨⟨hrun, hlanes, htimebase, hplay⟩, raises_trans h.raises (raises_raise (e := .done) ?_ fun _ => Iff.rfl)⟩
  simp [State.endRun]

end

theorem sameBut_latchNext (s : State) (n : Nat) : SameBut [.run, .play, .lanes, .events, .free] s (s.latchNext n) :=
  sameBut_latchRow s _ _

theorem sameBut_endRun (s : State) : SameBut [.timebase, .run, .play, .lanes, .events, .free] s s.endRun := by
  intro p hp
  have hframe := s.toIdle_ended.2 p
  cases p <;> simp_all [Part.same, State.endRun]

theorem State.enterTail_latches {s : State} (h : 0 < s.run.tailLen.toNat) :
    s.enterTail = ({ s with run := { s.run with seq := .tail } }).latchNext s.run.tailStart := if_pos h

theorem State.enterTail_ends {s : State} (h : s.run.tailLen.toNat = 0) : s.enterTail = s.endRun := if_neg (by omega)

/-- The commit of a loop entry or a pass boundary as one of the steps (R51). -/
theorem StepsTaken.commitPoint (s : State) : StepsTaken s s.commitPoint (fun e => e = .commit ∧ s.queue.closed ≠ []) :=
  ⟨s.commitPoint_raises, by simp, by simp, by simp⟩

/-- The flags of a run that ends with no other step. -/
theorem raises_done {s t : State} (h : Raises s t (fun e => False ∨ e = .done)) : Raises s t (fun e => e = .done) :=
  raises_congr h (by simp)

/-- Settles O42: loop entry with its commit, the skip to the tail, and the end of the run. -/
theorem lastHeadAndTailRowsEndTheirRegions : Obligations.LastHeadAndTailRowsEndTheirRegions := by
  unfold Obligations.LastHeadAndTailRowsEndTheirRegions
  intro s row h hlayout
  have hexec := exec_rowEnd_due h
  obtain ⟨-, hrunning, hlatched, -, -⟩ := h
  obtain ⟨hloop, hend, hoffset⟩ := validLayout_of_running hlayout hrunning
  obtain ⟨hended, hdone⟩ := (StepsTaken.refl s).endRun
  refine ⟨fun hseq hlast => ?_, fun hseq hlast => ?_⟩
  · rw [s.answerRowEnd_head hseq, if_neg (by unfold RunControl.loopStart; omega)] at hexec
    refine ⟨fun hstop => ?_, fun hstop htail => ?_, fun hstop htail => ?_⟩
    · have hentry : s.headEnd = (s.commitPoint.enter .loop).latchNext
          (s.run.base.toNat + s.run.headLen.toNat + s.run.entryOffset.toNat) := by
        simp [State.headEnd, hstop, State.beginPass, RunControl.loopStart]
      rw [hentry] at hexec
      have hsteps : StepsTaken s (s.commitPoint.enter .loop) _ := (StepsTaken.commitPoint s).withRun _
      obtain ⟨q, hq, hrun, hlatch, hraises⟩ := hsteps.latchNext hlatched
        (n := s.run.base.toNat + s.run.headLen.toNat + s.run.entryOffset.toNat) (by omega)
      refine ⟨_, hexec, q, hq, ?_, Committed.of_same s.commitPoint_committed rfl rfl (by simp) (by simp), hlatch, hraises, ?_⟩
      · rw [hrun]
        simp
      · exact SameBut.mono (SameBut.trans (SameBut.trans (sameBut_commitPoint s) (sameBut_run _ _)) (sameBut_latchNext _ _)) (by simp)
    · have hskip : s.headEnd = s.enterTail := by simp [State.headEnd, hstop]
      rw [hskip, State.enterTail_latches htail] at hexec
      exact ⟨_, hexec, latchNext_after_run hlatched { s.run with seq := .tail } (by
        show s.run.base.toNat + s.run.headLen.toNat + s.run.loopLen.toNat < 4096
        omega)⟩
    · have hskip : s.headEnd = s.enterTail := by simp [State.headEnd, hstop]
      rw [hskip, State.enterTail_ends htail] at hexec
      exact ⟨_, hexec, hended, raises_done hdone, sameBut_endRun s⟩
  · rw [s.answerRowEnd_tail hseq, if_neg (by unfold RunControl.layoutEnd RunControl.tailStart RunControl.loopStart; omega)] at hexec
    exact ⟨_, hexec, hended, runningPin_of_ended hended, raises_done hdone, sameBut_endRun s⟩

/-! ### The pass boundary -/

theorem RunControl.applyOffset_eq (r : RunControl) :
    r.applyOffset = { r with entryOffset := r.pendingOffset.getD r.entryOffset, pendingOffset := none } := by
  unfold RunControl.applyOffset
  cases h : r.pendingOffset with
  | some e => rfl
  | none =>
    conv_lhs => rw [show r = { r with pendingOffset := none } by rw [← h]]
    rfl

/-- Run control after steps 1 to 4 of a pass boundary (R88). -/
theorem State.boundary_run (s : State) : s.boundary.run = { s.run with
    passCount := if s.run.passCount = 0xFFFF then s.run.passCount else s.run.passCount + 1
    passmarkCycles := 2
    entryOffset := s.run.pendingOffset.getD s.run.entryOffset
    pendingOffset := none } := by
  simp [State.boundary, RunControl.applyOffset_eq, RunControl.countPass]

/-- Steps 1 to 4 of a pass boundary at PM, the queue and the flags (R88). -/
theorem State.boundary_steps (s : State) : Committed s s.boundary ∧
    StepsTaken s s.boundary (fun e => e = .pass ∨ e = .commit ∧ s.queue.closed ≠ []) ∧
    SameBut [.pm, .queue, .run, .events] s s.boundary := by
  unfold State.boundary
  dsimp only
  generalize hu : ({ (({ s with run := { s.run.countPass with passmarkCycles := 2 } } : State).raise .pass) with
    run := (({ s with run := { s.run.countPass with passmarkCycles := 2 } } : State).raise .pass).run.applyOffset } : State) = u
  have hpm : u.pm = s.pm := by rw [← hu]; rfl
  have hqueue : u.queue = s.queue := by rw [← hu]; rfl
  have hpass : StepsTaken s u (fun e => e = .pass) := by
    rw [← hu]
    exact ⟨raises_raise rfl (by simp), rfl, rfl, rfl⟩
  have hframe : SameBut [.run, .events] s u := by
    rw [← hu]
    intro p hp
    cases p <;> simp_all [Part.same]
  have hraises := u.commitPoint_raises
  rw [hqueue] at hraises
  refine ⟨Committed.of_same u.commitPoint_committed hpm hqueue rfl rfl, ⟨raises_trans hpass.raises hraises, ?_, ?_, ?_⟩,
    SameBut.mono (SameBut.trans hframe (sameBut_commitPoint u)) (by simp)⟩
  · simp [hpass.play]
  · simp [hpass.lanes]
  · simp [hpass.timebase]

theorem RunControl.loopEnds_iff (r : RunControl) :
    r.loopEnds = true ↔ r.stopMark = true ∨ r.targetInForce ≠ 0 ∧ r.passCount = r.targetInForce := by
  simp [RunControl.loopEnds]

/-- The offset that a boundary leaves in force is less than L (R77). -/
theorem offset_lt {r : RunControl} (h : LayoutSound r) (hvalid : ValidLayout r) :
    (r.pendingOffset.getD r.entryOffset).toNat < r.loopLen.toNat := by
  cases hp : r.pendingOffset with
  | some e => exact h.pending e hp
  | none => exact hvalid.2.2

/-- Settles O43: steps 1 to 4 in one lemma, then the boundary test. -/
theorem passBoundaryTakesItsSteps : Obligations.PassBoundaryTakesItsSteps := by
  unfold Obligations.PassBoundaryTakesItsSteps
  intro s row h hlayout hseq hlast count offset stepped ends
  have hexec := exec_rowEnd_due h
  obtain ⟨-, hrunning, hlatched, -, -⟩ := h
  have hvalid := validLayout_of_running hlayout hrunning
  have hoffset : offset.toNat < s.run.loopLen.toNat := offset_lt hlayout hvalid
  obtain ⟨hloop, hend, -⟩ := hvalid
  obtain ⟨hcommitted, hsteps, hframe⟩ := s.boundary_steps
  have hrun : s.boundary.run = stepped := s.boundary_run
  have hends : s.boundary.run.loopEnds = true ↔ ends := by
    rw [hrun]
    exact RunControl.loopEnds_iff stepped
  rw [s.answerRowEnd_loop hseq, if_neg (by omega)] at hexec
  refine ⟨fun hgo => ?_, fun hstop htail => ?_, fun hstop htail => ?_⟩
  · have hnext : s.passBoundary = (s.boundary.enter .loop).latchNext
        (s.run.base.toNat + s.run.headLen.toNat + offset.toNat) := by
      refine (if_neg fun he => hgo (hends.1 he)).trans ?_
      rw [State.beginPass, hrun]
      rfl
    rw [hnext] at hexec
    have hentered : StepsTaken s (s.boundary.enter .loop) _ := hsteps.withRun _
    obtain ⟨q, hq, hqrun, hlatch, hraises⟩ := hentered.latchNext hlatched
      (n := s.run.base.toNat + s.run.headLen.toNat + offset.toNat) (by omega)
    refine ⟨_, hexec, q, hq, ?_, Committed.of_same hcommitted rfl rfl (by simp) (by simp), hlatch, raises_congr hraises fun e => ?_, ?_⟩
    · rw [hqrun, State.enter_run, hrun]
      simp [stepped, hseq]
    · exact or_assoc.symm
    · exact SameBut.mono (SameBut.trans (SameBut.trans hframe (sameBut_run _ _)) (sameBut_latchNext _ _)) (by simp)
  · have hnext : s.passBoundary = ({ s.boundary with run := { s.boundary.run with seq := .tail } } : State).latchNext
        (s.run.base.toNat + s.run.headLen.toNat + s.run.loopLen.toNat) := by
      refine (if_pos (hends.2 hstop)).trans ?_
      rw [State.enterTail_latches (by rw [hrun]; exact htail), hrun]
      rfl
    rw [hnext] at hexec
    obtain ⟨q, hq, hqrun, hlatch, hraises⟩ := (hsteps.withRun { s.boundary.run with seq := .tail }).latchNext hlatched
      (n := s.run.base.toNat + s.run.headLen.toNat + s.run.loopLen.toNat) (by omega)
    refine ⟨_, hexec, q, hq, ?_, Committed.of_same hcommitted rfl rfl (by simp) (by simp), hlatch, raises_congr hraises fun e => ?_, ?_⟩
    · rw [hqrun, hrun]
    · exact or_assoc.symm
    · exact SameBut.mono (SameBut.trans (SameBut.trans hframe (sameBut_run _ _)) (sameBut_latchNext _ _)) (by simp)
  · have hnext : s.passBoundary = s.boundary.endRun :=
      (if_pos (hends.2 hstop)).trans (State.enterTail_ends (by rw [hrun]; exact htail))
    rw [hnext] at hexec
    obtain ⟨hended, hdone⟩ := hsteps.endRun
    rw [hrun] at hended
    refine ⟨_, hexec, hended, Committed.of_same hcommitted rfl rfl (by simp) (by simp), raises_congr hdone fun e => by tauto, ?_⟩
    exact SameBut.mono (SameBut.trans hframe (sameBut_endRun _)) (by simp)

end Sys2Proof.Machine
end

section
/-! Ticks at the latched row: the sample, the strobe, the wait check, and the fails they bring (R109 to R114, R138 to R147). -/

namespace Sys2Proof.Machine

/-! ### A detected fail -/

/-- The record joins the log or is counted (R143, R144). -/
theorem State.logFail_compare (s : State) (r : FailRecord) : (s.logFail r).compare =
    if s.compare.log.length < 32 then { s.compare with log := s.compare.log ++ [r] }
    else { s.compare with overflow := if s.compare.overflow = 0xFFFF then s.compare.overflow else s.compare.overflow + 1 } := by
  unfold State.logFail
  split <;> simp [CompareUnit.countDropped]

theorem State.logFail_policy (s : State) (r : FailRecord) : (s.logFail r).compare.policy = s.compare.policy := by
  rw [s.logFail_compare]
  split <;> rfl

/-- LOGFULL with the 32nd record, LOGOVF with every record dropped (R143, R144). -/
theorem State.logFail_raises (s : State) (r : FailRecord) : Raises s (s.logFail r)
    (fun e => (e = .logFull ∧ s.compare.log.length = 31) ∨ (e = .logOvf ∧ 32 ≤ s.compare.log.length)) := by
  unfold State.logFail
  split
  · next hroom =>
    refine raises_congr (raises_start raises_raiseIf rfl) fun e => ?_
    simp only [beq_iff_eq]
    constructor
    · rintro (⟨he, hlen⟩ | ⟨-, hlen⟩)
      · exact ⟨he, by omega⟩
      · omega
    · exact fun ⟨he, hlen⟩ => .inl ⟨he, by omega⟩
  · next hfull =>
    refine raises_raise (e := .logOvf) rfl fun e => ⟨?_, fun he => .inr ⟨he, by omega⟩⟩
    rintro (⟨-, hlen⟩ | ⟨he, -⟩)
    · omega
    · exact he

theorem sameBut_logFail (s : State) (r : FailRecord) : SameBut [.compare, .events] s ((s.raise .fail).logFail r) := by
  intro p hp
  cases p <;> simp_all [Part.same]

/-- The policy raises HALT under HALT and nothing otherwise (R147). -/
theorem State.applyPolicy_raises (s : State) : Raises s s.applyPolicy (fun e => e = .halt ∧ s.compare.policy = .halt) := by
  unfold State.applyPolicy
  match h : s.compare.policy with
  | .continue => exact raises_of_events rfl (by simp)
  | .stop => exact raises_of_events (by simp) (by simp)
  | .halt => exact raises_raise (e := .halt) (by simp [State.haltRun]) (by simp)

/-- A stop request of the policy (R93). -/
theorem State.stopRequest_run (s : State) :
    s.stopRequest.run = { s.run with stopMark := s.run.stopMark || (s.run.seq == .head || s.run.seq == .loop) } := by
  cases hmarks : (s.run.seq == .head || s.run.seq == .loop) with
  | true =>
    simp only [Bool.or_eq_true, beq_iff_eq] at hmarks
    rcases hmarks with h | h <;> simp [State.stopRequest, h]
  | false =>
    have hsame : s.stopRequest = s := by
      unfold State.stopRequest
      cases h : s.run.seq <;> simp_all
    rw [hsame, Bool.or_false]

/-- A halt request of the policy (R96). -/
theorem State.haltRun_take (s : State) :
    LanesTake s.lanes s.haltRun.lanes (Lanes.ofFn fun n => (s.lanes.effective.get n).held) ∧
    SameBut [.events, .run, .timebase, .lanes, .free] s s.haltRun := by
  refine ⟨State.holdLanes_take _, fun p hp => ?_⟩
  cases p <;> simp_all [Part.same]

/-- The record of a fail (R142). -/
theorem State.failRecord_eq (s : State) (kind : FailKind) (region : Region) (row : RowNum) (failing : Lanes Bool) :
    s.failRecord kind region row failing = recordOf s kind region row failing := by
  have hpass : s.run.passInProgress = if s.run.passCount = 0xFFFF then 0xFFFF else s.run.passCount + 1 :=
    ite_congr rfl id fun _ => rfl
  rw [State.failRecord, hpass]
  rfl

/-- A fail in a region of a run is handled (R145). -/
theorem State.detectFail_handled {s : State} {region : Region} (h : s.run.seq.region = some region) (kind : FailKind) (row : RowNum)
    (failing : Lanes Bool) : FailHandled s (s.detectFail kind row failing) (recordOf s kind region row failing) := by
  have hrecord : (s.raise .fail).failRecord kind region row failing = recordOf s kind region row failing :=
    (s.raise .fail).failRecord_eq kind region row failing
  have hdetect : s.detectFail kind row failing = ((s.raise .fail).logFail (recordOf s kind region row failing)).applyPolicy := by
    rw [← hrecord]
    simp [State.detectFail, h, State.failRecord]
  rw [hdetect]
  generalize hu : (s.raise .fail).logFail (recordOf s kind region row failing) = u
  have hlogged : u.compare = _ := hu ▸ (s.raise .fail).logFail_compare (recordOf s kind region row failing)
  have hpolicy : u.compare.policy = s.compare.policy := hu ▸ (s.raise .fail).logFail_policy (recordOf s kind region row failing)
  have hflags : Raises s u _ := hu ▸ raises_trans (raises_raise (s := s) (P := fun e => e = Event.fail) rfl fun _ => Iff.rfl)
    ((s.raise .fail).logFail_raises (recordOf s kind region row failing))
  have hframe : SameBut [.compare, .events] s u := hu ▸ sameBut_logFail s _
  have hrun : u.run = s.run := hframe .run (by simp)
  refine ⟨?_, ?_, ?_⟩
  · simpa using hlogged
  · refine raises_congr (raises_trans hflags u.applyPolicy_raises) fun e => ?_
    simp [hpolicy, or_assoc]
  · unfold State.applyPolicy
    match hp : s.compare.policy with
    | .continue =>
      rw [hpolicy, hp]
      exact hframe
    | .stop =>
      rw [hpolicy, hp]
      refine ⟨by rw [u.stopRequest_run, hrun], SameBut.mono (SameBut.trans (b := [.run]) hframe fun p hpart => ?_) (by simp)⟩
      cases p <;> simp_all [Part.same]
    | .halt =>
      rw [hpolicy, hp]
      obtain ⟨htake, hhalt⟩ := u.haltRun_take
      rw [hframe .lanes (by simp)] at htake
      refine ⟨by rw [u.haltRun_run, hrun], ?_, htake, SameBut.mono (SameBut.trans hframe hhalt) (by simp)⟩
      rw [u.haltRun_timebase, hframe .timebase (by simp)]
      rfl

/-! ### Timeouts and row ends that are not due -/

theorem State.timeOut_of_dwell {s : State} (h : s.play.phase = .dwell) : s.timeOut = s :=
  s.timeOut_of_not_due (by simp [State.timeoutDue, h])

/-- A row that waits, has counted no tick, or does not play has not ended (R109). -/
theorem State.rowEndDue_false {s : State} (h : s.play.phase = .waiting ∨ s.play.tickInRow = 0 ∨ s.run.seq.running = false) :
    s.rowEndDue = false := by
  rw [← Bool.not_eq_true, s.rowEndDue_iff]
  rintro ⟨row, -, hrunning, -, hphase, hcount⟩
  rcases h with h | h | h
  · rw [h] at hphase
    cases hphase
  · rw [h] at hcount
    exact Nat.succ_ne_zero _ hcount.symm
  · rw [h] at hrunning
    cases hrunning

/-! ### The front of a tick -/

/-- A tick is taken: the sample, the stamp, the row, then a timeout and a row end where they are due (R64, R132). -/
theorem exec_tick_taken {s : State} (htakes : s.takesCycles = true) (hc : s.pm.commits = []) :
    exec .tick s = .next (sampled s).playTick.timeOut.endRow := by
  show Host.Outcome.next s.completePeriod = _
  simp only [State.completePeriod, htakes, hc, List.isEmpty_nil, if_true]
  rfl

/-- The mismatching lanes (R138). -/
theorem State.rowMismatches_eq (s : State) (row : LatchedRow) : s.rowMismatches row = Lanes.ofFn fun n => mismatching s row n := by
  unfold State.rowMismatches mismatches
  congr
  funext n
  have hlow : (LaneState.expectingLow == LaneState.expectingHigh) = false := rfl
  have hhigh : (LaneState.expectingHigh == LaneState.expectingLow) = false := rfl
  unfold mismatching
  cases row.states.get n <;> simp [LaneState.expected, hlow, hhigh]

theorem any_mismatching_iff (s : State) (row : LatchedRow) :
    (s.rowMismatches row).any = true ↔ ∃ n, mismatching s row n = true := by
  rw [Lanes.any_eq_true, s.rowMismatches_eq]
  simp

theorem State.playTick_dwell {s : State} {row : LatchedRow} (h : s.play.latched = some row) (hphase : s.play.phase = .dwell) :
    s.playTick = s.dwellTick row := by
  simp [State.playTick, h, hphase]

theorem State.playTick_waiting {s : State} {row : LatchedRow} (h : s.play.latched = some row) (hphase : s.play.phase = .waiting) :
    s.playTick = s.waitCheck row := by
  simp [State.playTick, h, hphase]

/-! ### Ticks in the DWELL phase -/

/-- The tick-in-row count one on (R109). -/
def State.countTick (s : State) : State := { s with play := { s.play with tickInRow := s.play.tickInRow + 1 } }

/-- Away from the strobe tick, on a wait row, or without a mismatch no fail is detected (R109, R110, R115, R139). -/
theorem State.dwellTick_quiet {s : State} {row : LatchedRow} (h : row.wait = true ∨
    s.play.tickInRow + 1 ≠ min s.play.strobe.toNat (row.dwellLess1.toNat + 1) ∨ (∀ n, mismatching s row n = false)) :
    s.dwellTick row = s.countTick := by
  unfold State.dwellTick
  dsimp only
  split
  · next hstrobe =>
    simp only [Bool.and_eq_true, Bool.not_eq_true', beq_iff_eq] at hstrobe
    obtain ⟨hwait, hcount⟩ := hstrobe
    have hnone : ∀ n, mismatching s row n = false := by
      rcases h with h | h | h
      · rw [h] at hwait
        cases hwait
      · exact absurd hcount h
      · exact h
    refine if_neg ?_
    rw [any_mismatching_iff]
    rintro ⟨n, hn⟩
    have hsame : mismatching s row n = true := hn
    rw [hnone n] at hsame
    cases hsame
  · rfl

/-- A mismatch at the strobe tick is a COMPARE fail (R139). -/
theorem State.dwellTick_fails {s : State} {row : LatchedRow} (hwait : row.wait = false)
    (hcount : s.play.tickInRow + 1 = min s.play.strobe.toNat (row.dwellLess1.toNat + 1)) (h : ∃ n, mismatching s row n = true) :
    s.dwellTick row = s.countTick.detectFail .compare row.row (Lanes.ofFn fun n => mismatching s row n) := by
  have hstrobe : (!row.wait && s.play.tickInRow + 1 == strobeTick s.play.strobe row) = true := by
    rw [hwait, hcount]
    simp [strobeTick, dwellOf]
  have hany : (s.countTick.rowMismatches row).any = true := (any_mismatching_iff s row).2 h
  unfold State.dwellTick
  dsimp only
  rw [if_pos hstrobe]
  refine (if_pos hany).trans ?_
  rw [State.rowMismatches_eq]
  rfl

/-- Settles O44: the tick counts, and then the row end if it is due. -/
theorem dwellTickAdvancesTheRow : Obligations.DwellTickAdvancesTheRow := by
  unfold Obligations.DwellTickAdvancesTheRow
  intro s row htakes hc hlatched hphase hquiet t
  have htick : exec .tick s = .next t.endRow := by
    rw [exec_tick_taken htakes hc, State.playTick_dwell (s := sampled s) hlatched hphase, State.dwellTick_quiet (s := sampled s) hquiet]
    exact congrArg (fun u : State => Host.Outcome.next u.endRow) (State.timeOut_of_dwell (s := t) hphase)
  refine ⟨htick, fun hmore => htick.trans (congrArg Host.Outcome.next (t.endRow_of_not_due ?_))⟩
  rw [← Bool.not_eq_true, t.rowEndDue_iff]
  rintro ⟨row', -, -, hrow, -, hcount⟩
  obtain rfl := Option.some.inj (hlatched.symm.trans hrow)
  exact hmore hcount

/-- Under HALT a handled fail has ended the run's play (R96). -/
theorem running_of_halted {s t : State} {record : FailRecord} (h : FailHandled s t record) (hpolicy : s.compare.policy = .halt) :
    t.run.seq = .halted := by
  obtain ⟨-, -, hhandled⟩ := h
  rw [hpolicy] at hhandled
  obtain ⟨hrun, -⟩ := hhandled
  rw [hrun]

/-- Settles O45: the strobe's fail, then the row end if it is due. -/
theorem strobeMismatchIsAFail : Obligations.StrobeMismatchIsAFail := by
  unfold Obligations.StrobeMismatchIsAFail
  intro s row region htakes hc hlatched hphase hwait hregion hcount hmiss u
  have hhandled := State.detectFail_handled (s := u) hregion .compare row.row (Lanes.ofFn fun n => mismatching (sampled s) row n)
  generalize ht : u.detectFail .compare row.row (Lanes.ofFn fun n => mismatching (sampled s) row n) = t at hhandled
  have hplay : t.play = u.play := by
    rw [← ht]
    simp
  have htick : exec .tick s = .next t.endRow := by
    rw [exec_tick_taken htakes hc, State.playTick_dwell (s := sampled s) hlatched hphase,
      State.dwellTick_fails (s := sampled s) hwait hcount hmiss]
    refine congrArg (fun v : State => Host.Outcome.next v.endRow) ((State.timeOut_of_dwell ?_).trans ht)
    exact (congrArg Playback.phase ((congrArg State.play ht).trans hplay)).trans hphase
  refine ⟨t, hhandled, htick, fun hpolicy => htick.trans (congrArg Host.Outcome.next (t.endRow_of_not_due ?_))⟩
  exact State.rowEndDue_false (.inr (.inr (by rw [running_of_halted hhandled hpolicy]; rfl)))

/-! ### Ticks in the WAITING phase -/

theorem State.waitCheck_matched {s : State} {row : LatchedRow} (h : ∀ n, mismatching s row n = false) : s.waitCheck row = { s with
    play := { s.play with phase := .dwell, tickInRow := 0, checkMismatch := Lanes.ofFn fun n => mismatching s row n } } := by
  have hany : ¬(s.rowMismatches row).any = true := by
    rw [any_mismatching_iff]
    simp [h]
  rw [← s.rowMismatches_eq]
  exact if_neg hany

theorem State.waitCheck_missed {s : State} {row : LatchedRow} (h : ∃ n, mismatching s row n = true) : s.waitCheck row = { s with
    play := { s.play with
      waitCount := if s.play.waitCount = 0xFFFF then s.play.waitCount else s.play.waitCount + 1
      checkMismatch := Lanes.ofFn fun n => mismatching s row n } } := by
  rw [← s.rowMismatches_eq]
  exact if_pos ((any_mismatching_iff s row).2 h)

/-- After a timeout the row's dwell begins or the run is halted, so no row end follows in the same event (R114). -/
theorem State.rowEndDue_timeOut {s : State} (h : s.play.phase = .waiting) : s.timeOut.rowEndDue = false := by
  unfold State.timeOut
  split
  · split
    · unfold State.afterTimeout
      split
      · next hhalted => exact State.rowEndDue_false (.inr (.inr (by rw [hhalted]; rfl)))
      · exact State.rowEndDue_false (.inr (.inl rfl))
    · exact State.rowEndDue_false (.inl h)
  · exact State.rowEndDue_false (.inl h)

/-- Settles O46: a match, a miss below the limit, and the miss that reaches it. -/
theorem waitTickChecksTheLanes : Obligations.WaitTickChecksTheLanes := by
  unfold Obligations.WaitTickChecksTheLanes
  intro s row htakes hc hrunning hlatched hphase missed count unmatched
  have htick : exec .tick s = .next ((sampled s).waitCheck row).timeOut.endRow := by
    rw [exec_tick_taken htakes hc, State.playTick_waiting (s := sampled s) hlatched hphase]
  refine ⟨fun hmatch => ?_, fun hmiss => ?_⟩
  · rw [htick, State.waitCheck_matched (s := sampled s) hmatch]
    refine congrArg Host.Outcome.next ?_
    rw [State.timeOut_of_dwell rfl]
    exact State.endRow_of_not_due _ (State.rowEndDue_false (.inr (.inl rfl)))
  · have hunmatched : exec .tick s = .next unmatched.timeOut := by
      rw [htick, State.waitCheck_missed (s := sampled s) hmiss]
      exact congrArg Host.Outcome.next (State.endRow_of_not_due _ (State.rowEndDue_timeOut (s := unmatched) hphase))
    refine ⟨fun hbelow => ?_, fun _ _ => hunmatched⟩
    rw [hunmatched]
    refine congrArg Host.Outcome.next (unmatched.timeOut_of_not_due ?_)
    rw [← Bool.not_eq_true, timeoutDue_iff]
    rintro ⟨-, -, -, -, hlimit, hcount, -⟩
    exact hbelow.elim hlimit fun hne => hne hcount

/-! ### A wait that times out -/

/-- Outside HALT a handled fail leaves the sequencer's state (R145, R147). -/
theorem seq_of_handled {s t : State} {record : FailRecord} (h : FailHandled s t record) (hpolicy : s.compare.policy ≠ .halt) :
    t.run.seq = s.run.seq := by
  obtain ⟨-, -, hhandled⟩ := h
  match hp : s.compare.policy with
  | .continue =>
    rw [hp] at hhandled
    exact congrArg RunControl.seq (hhandled .run (by simp))
  | .stop =>
    rw [hp] at hhandled
    rw [hhandled.1]
  | .halt => exact absurd hp hpolicy

theorem running_of_region_eq_some {q : SeqState} {region : Region} (h : q.region = some region) : q.running = true := by
  cases q <;> simp_all [SeqState.region, SeqState.running]

/-- Settles O47: the timeout's fail, after which the dwell begins unless the run is halted. -/
theorem waitTimeoutIsAFail : Obligations.WaitTimeoutIsAFail := by
  unfold Obligations.WaitTimeoutIsAFail
  intro s row region hreset hlatched hregion hphase hlimit hcount hmiss
  have hdue : s.timeoutDue = true := (timeoutDue_iff s).2
    ⟨hreset, running_of_region_eq_some hregion, by simp [hlatched], hphase, hlimit, hcount, (Lanes.any_eq_true _).2 hmiss⟩
  have hhandled := State.detectFail_handled hregion .waitTimeout row.row s.play.checkMismatch
  have hplay : (s.detectFail .waitTimeout row.row s.play.checkMismatch).play = s.play := by simp
  have hexec : exec .waitTimeout s = .next (s.detectFail .waitTimeout row.row s.play.checkMismatch).afterTimeout := by
    show Host.Outcome.next s.timeOut = _
    simp [State.timeOut, hlatched, hdue]
  refine ⟨_, hhandled, fun hpolicy => ?_, fun hpolicy => ?_⟩
  · rw [hexec]
    exact congrArg Host.Outcome.next (if_pos (running_of_halted hhandled hpolicy))
  · have hseq : (s.detectFail .waitTimeout row.row s.play.checkMismatch).run.seq ≠ .halted := by
      rw [seq_of_handled hhandled hpolicy]
      intro hhalted
      rw [hhalted] at hregion
      cases hregion
    rw [hexec]
    refine congrArg Host.Outcome.next ((if_neg hseq).trans ?_)
    rw [State.beginDwell, hplay]

end Sys2Proof.Machine
end

section
/-! The lanes: PARK and TERM writes (R126, R128), keepers and pins (R124, R127, R132, R133). -/

namespace Sys2Proof.Machine

/-! ### The fields of the PARK and TERM registers -/

theorem halfCovers_iff (half : Half) (n : Lane) :
    halfCovers half n = true ↔ (if half = .a then n.val < 8 else 8 ≤ n.val) := by
  cases half <;> simp [halfCovers]

/-- Field i of a word, counted in twos from bit 0. -/
theorem field_toNat (word : Word) (i : Nat) : (word.extractLsb' (2 * i) 2).toNat = word.toNat / 4 ^ i % 4 := by
  rw [BitVec.extractLsb'_toNat, Nat.shiftRight_eq_div_pow, Nat.pow_mul]

theorem laneField_toNat (word : Word) (n : Lane) : (laneField word n).toNat = word.toNat / 4 ^ (n.val % 8) % 4 := field_toNat word _

theorem fieldsValid_iff (word : Word) : fieldsValid word = true ↔ ¬∃ i, i < 8 ∧ word.toNat / 4 ^ i % 4 = 3 := by
  have hthree (i : Nat) : word.extractLsb' (2 * i) 2 = 3#2 ↔ word.toNat / 4 ^ i % 4 = 3 := by
    rw [← field_toNat, ← BitVec.toNat_inj]
    rfl
  simp [fieldsValid, ← hthree]

/-- A PARK or TERM register reads back the field of each of its lanes (R126, R128). -/
theorem fieldsWord_field (half : Half) (f : Lane → BitVec 2) {n : Lane} (h : halfCovers half n = true) :
    (fieldsWord half f).toNat / 4 ^ (n.val % 8) % 4 = (f n).toNat := by
  have hlt (m : Lane) : (f m).toNat < 4 := (f m).isLt
  obtain ⟨n, hn⟩ := n
  cases half with
  | a =>
    have hlow : n < 8 := by simpa [halfCovers] using h
    have := hlt 0; have := hlt 1; have := hlt 2; have := hlt 3
    have := hlt 4; have := hlt 5; have := hlt 6; have := hlt 7
    simp only [fieldsWord, append_toNat]
    interval_cases n <;> simp <;> omega
  | b =>
    have hhigh : 8 ≤ n := by simpa [halfCovers] using h
    have := hlt 8; have := hlt 9; have := hlt 10; have := hlt 11
    have := hlt 12; have := hlt 13; have := hlt 14; have := hlt 15
    simp only [fieldsWord, append_toNat]
    interval_cases n <;> simp <;> omega

/-- A field of 0, 1 or 2 is its setting (R128). -/
theorem Park.ofField_of_toNat {b : BitVec 2} : (b.toNat = 0 → Park.ofField b = .release) ∧ (b.toNat = 1 → Park.ofField b = .low) ∧
    (b.toNat = 2 → Park.ofField b = .high) := by
  refine ⟨fun h => ?_, fun h => ?_, fun h => ?_⟩ <;> simp [Park.ofField, h]

theorem Termination.ofField_of_toNat {b : BitVec 2} : (b.toNat = 0 → Termination.ofField b = .none) ∧
    (b.toNat = 1 → Termination.ofField b = .pullUp) ∧ (b.toNat = 2 → Termination.ofField b = .pullDown) := by
  refine ⟨fun h => ?_, fun h => ?_, fun h => ?_⟩ <;> simp [Termination.ofField, h]

theorem Park.toField_toNat (p : Park) : p.toField.toNat = match p with | .release => 0 | .low => 1 | .high => 2 := by
  cases p <;> rfl

theorem Termination.toField_toNat (p : Termination) : p.toField.toNat = match p with | .none => 0 | .pullUp => 1 | .pullDown => 2 := by
  cases p <;> rfl

theorem sameBut_setLanes (s : State) (f : LaneUnit → LaneUnit) : SameBut [.lanes, .free] s (s.setLanes f) := by
  intro p hp
  cases p <;> simp_all [Part.same]

/-! ### PARK -/

theorem State.writePark_invalid {s : State} {half : Half} {value : Word} (h : ¬fieldsValid value = true) :
    s.writePark half value = s.raise .accErr := by
  simp [State.writePark, h]

/-- The lane unit after a PARK write (R128). -/
def LaneUnit.parked (u : LaneUnit) (half : Half) (value : Word) (atOnce : Bool) : LaneUnit :=
  if atOnce then (u.withPark half value).parkHalf half else u.withPark half value

theorem State.writePark_valid {s : State} {half : Half} {value : Word} (h : fieldsValid value = true) : s.writePark half value =
    s.setLanes fun u => u.parked half value (decide (s.run.seq = .idle ∨ s.run.seq = .armed)) := by
  by_cases hseq : s.run.seq = .idle ∨ s.run.seq = .armed <;> simp [State.writePark, h, hseq, LaneUnit.parked]

theorem LaneUnit.parked_fields (u : LaneUnit) (half : Half) (value : Word) (atOnce : Bool) :
    (u.parked half value atOnce).term = u.term ∧ (u.parked half value atOnce).uut = u.uut ∧
    (u.parked half value atOnce).active = u.active ∧ (u.parked half value atOnce).sample = u.sample := by
  cases atOnce <;> exact ⟨rfl, rfl, rfl, rfl⟩

theorem LaneUnit.parked_park (u : LaneUnit) (half : Half) (value : Word) (atOnce : Bool) (n : Lane) :
    (u.parked half value atOnce).park.get n = if halfCovers half n then Park.ofField (laneField value n) else u.park.get n := by
  cases atOnce <;> simp [LaneUnit.parked, LaneUnit.withPark, LaneUnit.parkHalf]

theorem LaneUnit.parked_effective (u : LaneUnit) (half : Half) (value : Word) (atOnce : Bool) (n : Lane) :
    (u.parked half value atOnce).effective.get n =
      if atOnce && halfCovers half n then ((u.parked half value atOnce).park.get n).state else u.effective.get n := by
  cases atOnce <;> simp [LaneUnit.parked, LaneUnit.withPark, LaneUnit.parkHalf]

/-- A write with a field of 3, or during the sweep, raises ACCERR (R10, R126, R128). -/
theorem regWrite_refused {s : State} {f : State → State} (hreset : s.pins.resetLow = false) {invalid : Prop}
    (h : s.pm.sweep.isSome = true ∨ invalid) (hf : invalid → f s = s.raise .accErr) : s.regWrite f = s.raise .accErr := by
  cases hsweep : s.pm.sweep.isSome with
  | true => exact s.regWrite_sweep f hreset hsweep
  | false =>
    rw [hsweep] at h
    rw [s.regWrite_ready f ⟨hreset, by simpa using hsweep⟩, hf (by simpa using h)]

/-- Settles O49: the fields of the word, and the lanes of the half in one request. -/
theorem parkWriteParksInIdleAndArmed : Obligations.ParkWriteParksInIdleAndArmed := by
  unfold Obligations.ParkWriteParksInIdleAndArmed
  intro s half value covered field invalid
  have hcovered (n : Lane) : halfCovers half n = true ↔ covered n := halfCovers_iff half n
  have hvalid : fieldsValid value = true ↔ ¬invalid := fieldsValid_iff value
  refine ⟨fun hreset h => ?_, fun n hn => ?_, fun hready hok => ?_⟩
  · exact congrArg Host.Outcome.next (regWrite_refused hreset h fun hbad =>
      State.writePark_invalid fun hgood => hvalid.1 hgood hbad)
  · have hread := fieldsWord_field half (fun n => (s.lanes.park.get n).toField) ((hcovered n).2 hn)
    rw [Park.toField_toNat] at hread
    cases half <;> exact hread
  · have hexec : exec (.parkWrite half value) s = .next (s.writePark half value) :=
      congrArg Host.Outcome.next (s.regWrite_ready _ hready)
    rw [State.writePark_valid (hvalid.2 hok)] at hexec
    generalize hat : decide (s.run.seq = .idle ∨ s.run.seq = .armed) = atOnce at hexec
    have hpark (n : Lane) : (s.setLanes fun u => u.parked half value atOnce).lanes.park.get n =
        if halfCovers half n then Park.ofField (laneField value n) else s.lanes.park.get n := by
      simp [LaneUnit.parked_park]
    refine ⟨_, hexec, sameBut_setLanes _ _, fun n hn => ?_, fun n hn => ?_, ?_, ?_⟩
    · rw [hpark, if_neg fun hc => hn ((hcovered n).1 hc)]
    · rw [hpark, if_pos ((hcovered n).2 hn)]
      have hsetting := Park.ofField_of_toNat (b := laneField value n)
      rw [laneField_toNat] at hsetting
      exact hsetting
    · ext n
      rw [Lanes.get_ofFn, hpark]
      simp only [State.setLanes_lanes, LaneUnit.settle_fields, LaneUnit.parked_effective, LaneUnit.parked_park, ← hcovered, ← hat]
      simp
    · simp only [State.setLanes_lanes, LaneUnit.settle_fields, LaneUnit.parked_fields, true_and]
      exact ⟨LaneUnit.settle_keepersHold _ _ _, LaneUnit.settle_keepersFollow _ _ _⟩

/-! ### TERM -/

theorem State.writeTerm_invalid {s : State} {half : Half} {value : Word} (h : ¬fieldsValid value = true) :
    s.writeTerm half value = s.raise .accErr := by
  simp [State.writeTerm, h]

theorem State.writeTerm_valid {s : State} {half : Half} {value : Word} (h : fieldsValid value = true) :
    s.writeTerm half value = s.setLanes fun u => u.withTerm half value := by
  simp [State.writeTerm, h]

theorem LaneUnit.withTerm_fields (u : LaneUnit) (half : Half) (value : Word) :
    (u.withTerm half value).effective = u.effective ∧ (u.withTerm half value).park = u.park ∧ (u.withTerm half value).uut = u.uut ∧
    (u.withTerm half value).active = u.active ∧ (u.withTerm half value).sample = u.sample := ⟨rfl, rfl, rfl, rfl, rfl⟩

theorem LaneUnit.withTerm_term (u : LaneUnit) (half : Half) (value : Word) (n : Lane) : (u.withTerm half value).term.get n =
    if halfCovers half n then Termination.ofField (laneField value n) else u.term.get n := by
  simp [LaneUnit.withTerm]

/-- Settles O50: the fields of the word; no effective state changes with a termination. -/
theorem termWriteSetsTerminations : Obligations.TermWriteSetsTerminations := by
  unfold Obligations.TermWriteSetsTerminations
  intro s half value covered field invalid
  have hcovered (n : Lane) : halfCovers half n = true ↔ covered n := halfCovers_iff half n
  have hvalid : fieldsValid value = true ↔ ¬invalid := fieldsValid_iff value
  refine ⟨fun hreset h => ?_, fun n hn => ?_, fun hready hok => ?_⟩
  · exact congrArg Host.Outcome.next (regWrite_refused hreset h fun hbad =>
      State.writeTerm_invalid fun hgood => hvalid.1 hgood hbad)
  · have hread := fieldsWord_field half (fun n => (s.lanes.term.get n).toField) ((hcovered n).2 hn)
    rw [Termination.toField_toNat] at hread
    cases half <;> exact hread
  · have hexec : exec (.termWrite half value) s = .next (s.writeTerm half value) :=
      congrArg Host.Outcome.next (s.regWrite_ready _ hready)
    rw [State.writeTerm_valid (hvalid.2 hok)] at hexec
    have hterm (n : Lane) : (s.setLanes fun u => u.withTerm half value).lanes.term.get n =
        if halfCovers half n then Termination.ofField (laneField value n) else s.lanes.term.get n := by
      simp [LaneUnit.withTerm_term]
    refine ⟨_, hexec, sameBut_setLanes _ _, fun n hn => ?_, fun n hn => ?_, ?_⟩
    · rw [hterm, if_neg fun hc => hn ((hcovered n).1 hc)]
    · rw [hterm, if_pos ((hcovered n).2 hn)]
      have hsetting := Termination.ofField_of_toNat (b := laneField value n)
      rw [laneField_toNat] at hsetting
      exact hsetting
    · simp only [State.setLanes_lanes, LaneUnit.settle_fields, LaneUnit.withTerm_fields, true_and]
      exact ⟨LaneUnit.settle_keepersHold _ _ _, LaneUnit.settle_keepersFollow _ _ _⟩

/-! ### Keepers -/

/-- A lane that is still being pulled has no driver on it (R127). -/
theorem LaneUnit.undriven_of_pulled {u : LaneUnit} {n : Lane} (h : u.pinLevel n = none) :
    u.driver n = none ∧ uutLevel (u.uut.get n) = none := by
  unfold LaneUnit.pinLevel LaneUnit.pinLevelFrom at h
  cases hd : u.driver n with
  | some b => simp [hd] at h
  | none =>
    cases hu : uutLevel (u.uut.get n) with
    | some b => simp [hd, hu] at h
    | none => exact ⟨rfl, rfl⟩

/-- A pin whose keeper stands at the pulled level is at it (R127; log entry 10). -/
theorem LaneUnit.pinLevel_pulled {u : LaneUnit} {n : Lane} {level : Bool} (hd : u.driver n = none)
    (hu : uutLevel (u.uut.get n) = none) (hp : u.pull n = some level) (hk : u.keeper.get n = level) : u.pinLevel n = some level := by
  simp [LaneUnit.pinLevel, LaneUnit.pinLevelFrom, hd, hu, hp, hk]

/-- Settles O51: a change of the unit under test is one lane request; a level reached is the keeper's. -/
theorem keepersFollowThePins : Obligations.KeepersFollowThePins := by
  unfold Obligations.KeepersFollowThePins
  intro s n
  refine ⟨fun drive => ⟨_, rfl, ?_⟩, fun level hmoving hpull => ?_⟩
  · exact ⟨rfl, rfl, rfl, rfl, rfl, rfl, LaneUnit.settle_keepersHold _ _ _, LaneUnit.settle_keepersFollow _ _ _, sameBut_setLanes _ _⟩
  · obtain ⟨hdriver, huut⟩ := LaneUnit.undriven_of_pulled hmoving
    have hreach : s.reachPulledLevel n = { s with lanes := { s.lanes with keeper := s.lanes.keeper.set n level } } := by
      unfold State.reachPulledLevel
      rw [hmoving, hpull]
    refine ⟨_, congrArg Host.Outcome.next hreach, rfl, LaneUnit.pinLevel_pulled hdriver huut hpull ?_⟩
    exact Lanes.get_set_same _ _ _

/-! ### Pins -/

theorem LaneState.driven_eq_none {q : LaneState} (h : ¬(q = .drivenLow ∨ q = .drivenHigh)) : q.driven = none := by
  cases q <;> simp_all [LaneState.driven]

/-- A lane is contended only where the part drives it and the unit under test drives it at the other level (R133). -/
theorem LaneUnit.contended_iff (u : LaneUnit) (n : Lane) :
    u.contended n = true ↔ ∃ a c, u.driver n = some a ∧ uutLevel (u.uut.get n) = some c ∧ c ≠ a := by
  unfold LaneUnit.contended
  cases u.driver n with
  | none => simp
  | some a =>
    cases uutLevel (u.uut.get n) with
    | none => simp
    | some c => simpa using ne_comm (a := a) (b := c)

/-- Settles O52: the pin by order of strength; the sampler and LANE_IN read it, LANE_IN where nothing is contended. -/
theorem pinsStandWhereTheyAreDriven : Obligations.PinsStandWhereTheyAreDriven := by
  unfold Obligations.PinsStandWhereTheyAreDriven
  intro s n hactive state driven
  have hdriver : s.lanes.driver n = state.driven := by simp [LaneUnit.driver, hactive, state]
  have hundriven (h : ¬driven) : s.lanes.driver n = none := hdriver.trans (LaneState.driven_eq_none h)
  have hpull (h : ¬driven) : s.lanes.pull n = (s.lanes.term.get n).level := by simp [LaneUnit.pull, hactive, hundriven h]
  refine ⟨?_, fun b hb => ?_⟩
  · have hdrive : s.laneDrive.get n = state.driven.isSome := by simp [State.laneDrive, state]
    rw [hdrive]
    cases hstate : state <;> simp [driven, hstate, LaneState.driven]
  · have hpin : s.lanes.pinLevel n = some b := by
      rcases hb with ⟨hlow, rfl⟩ | ⟨hhigh, rfl⟩ | ⟨hnot, huut⟩ | ⟨hnot, hsilent, hkeeper, hterm⟩
      · exact s.lanes.pinLevel_driven n _ (by rw [hdriver, hlow]; rfl)
      · exact s.lanes.pinLevel_driven n _ (by rw [hdriver, hhigh]; rfl)
      · exact s.lanes.pinLevel_uut n b (hundriven hnot) huut
      · have huut : uutLevel (s.lanes.uut.get n) = none := by rw [hsilent]; rfl
        rcases hterm with hterm | ⟨hterm, rfl⟩ | ⟨hterm, rfl⟩
        · rw [← hkeeper]
          exact s.lanes.pinLevel_kept n (hundriven hnot) huut (by rw [hpull hnot, hterm]; rfl)
        · exact LaneUnit.pinLevel_pulled (hundriven hnot) huut (by rw [hpull hnot, hterm]; rfl) hkeeper
        · exact LaneUnit.pinLevel_pulled (hundriven hnot) huut (by rw [hpull hnot, hterm]; rfl) hkeeper
    refine ⟨hpin, by simp [State.sampledLevels, hpin], fun hclear => ?_⟩
    have hcontended : ¬s.lanes.contended n = true := by
      rw [LaneUnit.contended_iff]
      rintro ⟨a, c, ha, hc, hne⟩
      have hab : a = b := Option.some.inj ((s.lanes.pinLevel_driven n a ha).symm.trans hpin)
      refine hclear ⟨?_, c, hc, hab ▸ hne⟩
      by_contra hnot
      rw [hundriven hnot] at ha
      cases ha
    simp [State.laneIn, hcontended, hpin]

end Sys2Proof.Machine
end

section
/-! The register map and the edges of the bus strobes (R165, R166, R167; log entry 29). -/

namespace Sys2Proof.Machine

/-! ### Unmapped addresses -/

/-- COMMAND and the unmapped addresses read 0x0000 (R166). -/
theorem State.regWord_unmapped (s : State) {addr : Addr} (h : addr.toNat ∈ [0x03, 0x07, 0x12, 0x13, 0x1D, 0x1E, 0x1F, 0x25, 0x26,
    0x27, 0x2F, 0x3A, 0x3B, 0x3C, 0x3D, 0x3E, 0x3F]) : s.regWord addr = 0 := by
  unfold State.regWord
  simp only [List.mem_cons, List.not_mem_nil, or_false] at h
  rcases h with h | h | h | h | h | h | h | h | h | h | h | h | h | h | h | h | h
  all_goals
    rw [h]
    rfl

/-! ### Edges -/

section
variable {s : State} (hp : s.pending = []) (hreset : s.pins.resetLow = false)
include hp hreset

theorem step_sample : step s = .next s.clockBlocks.sampleLines := by
  unfold step
  rw [hp]
  simp [State.clockCycle, hreset]

/-- One strobe that has moved brings the event of its edge (R165). -/
theorem step_edge {k : Strobe} (hmoved : s.pins.lines.strobes ≠ s.bus.seen)
    (hone : s.pins.lines.strobes.follow k s.bus.seen = s.pins.lines.strobes) :
    step s = .next ((atEdge s).takeBusEvent (s.pins.lines.strobes.event k)) := by
  obtain ⟨-, hbus, hpins, -⟩ := s.clockBlocks_frame
  rw [step_sample hp hreset, s.clockBlocks.sampleLines_one k (by rwa [hbus, hpins]) (by rwa [hbus, hpins]), atEdge]
  simp only [hpins]

/-- CS_N, RD_N or both fallen with WR_N high, so that both are low, begin one read (R165). -/
theorem step_read (hnow : s.pins.lines.strobes = ⟨true, true, false⟩) (hwr : s.bus.seen.wrLow = false)
    (hmoved : s.bus.seen ≠ s.pins.lines.strobes) : step s = .next ((atEdge s).beginRead s.pins.lines.addr) := by
  obtain ⟨-, hbus, hpins, -⟩ := s.clockBlocks_frame
  rw [step_sample hp hreset, s.clockBlocks.sampleLines_read (by rwa [hpins]) (by rwa [hbus]) (by rwa [hbus, hpins]), atEdge]
  simp only [hpins]

end

/-- An edge of one strobe that is neither the write nor the beginning of a read (R165). -/
theorem Strobes.event_nothing {was now : Strobes}
    (h : (now = { was with wrLow := false } ∧ was.wrLow = true ∧ was.csLow = false) ∨
      (now = { was with wrLow := true } ∧ was.wrLow = false) ∨
      (now = { was with csLow := false } ∧ was.csLow = true) ∨ (now = { was with rdLow := false } ∧ was.rdLow = true) ∨
      (now = { was with csLow := true } ∧ was.csLow = false ∧ (was.rdLow = false ∨ was.wrLow = true)) ∨
      (now = { was with rdLow := true } ∧ was.rdLow = false ∧ (was.csLow = false ∨ was.wrLow = true))) :
    ∃ k, now ≠ was ∧ now.follow k was = now ∧ now.event k = .nothing := by
  obtain ⟨c, r, w⟩ := was
  rcases h with ⟨rfl, hw, hc⟩ | ⟨rfl, hw⟩ | ⟨rfl, hc⟩ | ⟨rfl, hr⟩ | ⟨rfl, hc, hother⟩ | ⟨rfl, hr, hother⟩
  · exact ⟨.wr, by simp_all, rfl, by simp_all [Strobes.event]⟩
  · exact ⟨.wr, by simp_all, rfl, by simp_all [Strobes.event]⟩
  · exact ⟨.cs, by simp_all, rfl, by simp_all [Strobes.event]⟩
  · exact ⟨.rd, by simp_all, rfl, by simp_all [Strobes.event]⟩
  · exact ⟨.cs, by simp_all, rfl, by rcases hother with hother | hother <;> simp_all [Strobes.event]⟩
  · exact ⟨.rd, by simp_all, rfl, by rcases hother with hother | hother <;> simp_all [Strobes.event]⟩

/-- Settles O56: the map by its rows, the edges by the event of the strobe that has moved. -/
theorem writeCycleGoesThroughTheMap : Obligations.WriteCycleGoesThroughTheMap := by
  unfold Obligations.WriteCycleGoesThroughTheMap
  intro s addr value
  refine ⟨fun c hc => exec_registerWrite_of_row hc s, fun hnone => exec_registerWrite_of_no_row hnone s, s.regWord_unmapped,
    fun hreset => State.readReg_high hreset addr, fun hp hreset => ?_⟩
  intro was now u
  have hlines : u.pins = s.pins := s.clockBlocks_frame.2.2.1
  refine ⟨fun hsame => ?_, fun hcs hwr hnow => ?_, fun hnow hwr hmoved => ⟨fun haddr => ?_, fun haddr => ?_⟩, fun hother => ?_⟩
  · obtain ⟨-, hbus, hpins, -⟩ := s.clockBlocks_frame
    rw [step_sample hp hreset, State.sampleLines_still _ (by rw [hbus, hpins]; exact hsame.symm)]
  · have hmoved : now ≠ was := fun he => by
      rw [he] at hnow
      rw [hnow] at hwr
      cases hwr
    have hevent : now.event .wr = .write := by simp [Strobes.event, hnow, hcs]
    have hone : now.follow .wr was = now := by
      rw [hnow]
      rfl
    rw [step_edge hp hreset hmoved hone, hevent]
    show Host.Outcome.next (u.writeReg u.pins.lines.addr u.pins.lines.data) = _
    rw [hlines]
    rfl
  · rw [step_read hp hreset hnow hwr hmoved]
    exact congrArg Host.Outcome.next (if_neg haddr)
  · refine ⟨u.readData, ?_, ?_⟩
    · show Host.Outcome.next (u.busCycle State.readData) = _
      rw [State.busCycle, hlines, hreset]
      rfl
    · rw [step_read hp hreset hnow hwr hmoved]
      exact congrArg Host.Outcome.next (if_pos haddr)
  · obtain ⟨k, hmoved, hone, hevent⟩ := Strobes.event_nothing hother
    rw [step_edge hp hreset hmoved hone, hevent]
    rfl

end Sys2Proof.Machine
end
